-- ==== Sys2Proof/Word.lean ====
section
/-! DEFINITION. The word types of the Digital-Clock core. -/

namespace Sys2Proof

/-- A 16-bit one-hot digit pattern, `p[15:0]` of rule R72 (PATTERN_W of rule R6). -/
abbrev Pattern := BitVec 16

/-- Three one-bit lines or registers, bit i the one of index i: `btn_n[2:0]`, `prev[2:0]`, `bank_n[2:0]`
(rules R25, R29, R50) and `fire[2:0]` (rule R34). -/
abbrev Lines3 := BitVec 3

/-- Two-bit codes: cursor codes (rule R74). -/
abbrev Code2 := BitVec 2

end Sys2Proof
end

