-- ==== Sys2Proof/Config.lean ====
section
/-! DEFINITION. The parameters of rule R7, and the free values the spec leaves to the environment. -/

namespace Sys2Proof

/-- GATE_CMP of rule R7: the comparison that makes a pass a gated pass. -/
inductive GateCmp where
  | eq
  | ge
  deriving DecidableEq, Repr

/-- The parameters of rule R7 that the pass-level model represents. T_EVENT and T_PASS are not among
them: rule R222 says a model need not represent them (log entry 16). `secThreshold` and `dbThreshold`
have the widths rule R77 gives the two comparisons (8 bits and DB_W bits). -/
structure Params where
  secW : Nat
  secThreshold : BitVec 8
  dbW : Nat
  dbThreshold : BitVec dbW
  gateCmp : GateCmp
  deriving DecidableEq, Repr

/-- The part's one-second threshold less one: OPEN in rule R7 and in 1..255 by rule R176, so a free
value (log entry 1). -/
opaque Config.secThresholdPred : Fin 255

/-- The part's debounce gate threshold: OPEN in rule R7, so a free value (log entry 1). -/
opaque Config.dbThreshold : BitVec 8

/-- The parameters State.reset carries: the defaults of rule R7 where it gives them (DESIGN CHOICE of
the spec: SEC_W = 16, DB_W = 8, GATE_CMP = EQ), free values for the OPEN thresholds (log entry 1). -/
def Params.part : Params where
  secW := 16
  secThreshold := BitVec.ofFin Config.secThresholdPred.succ
  dbW := 8
  dbThreshold := Config.dbThreshold
  gateCmp := .eq

/-- The free draws of rule R52 and D18: what the environment presents in the n-th pass it supplies
by itself. Nothing constrains them (log entry 4). -/
opaque Config.drawSecCount : Nat → Nat

/-- The free draw of `db_count` (rule R52; log entry 4). -/
opaque Config.drawDbCount : Nat → Nat

/-- The free draw of `btn_n[2:0]` (rules R52, R220; log entry 4). -/
opaque Config.drawBtnN : Nat → BitVec 3

/-- The free draw of `rst`: none when it stays 0 throughout the pass, `some k` when it is asserted
once the pass has emitted k drive events (rule R210; log entries 4 and 10). -/
opaque Config.drawRst : Nat → Option Nat

/-- The external shift register's contents at power-on: "unknown" (rule R213(b), I12; log entry 11). -/
opaque Config.shiftAtPowerOn : Pattern

/-- The external output latches' contents at power-on: "unknown" (rule R213(b), I12; log entry 11). -/
opaque Config.latchAtPowerOn : Pattern

end Sys2Proof
end

