-- ==== Sys2Proof/Syntax.lean ====
section
/-! DEFINITION. The terms of the model: quantities, sample records, drive events, stimuli, and one
constructor of `Instr` per row of spec/opcode_table.json. -/

namespace Sys2Proof

/-- The three quantities of rule R6. One type serves the cursor states of rule R74, the banks of rule
R29 and the buttons of rule R50, since "the code of a state equals the index of its bank in `bank_n`
and of its button in `btn_n`". -/
inductive Quantity where
  | seconds
  | minutes
  | hours
  deriving DecidableEq, Repr

/-- A sample record (rule R51): what the input ports present in one pass. The two counts are plain
numbers here; a read takes SEC_W and DB_W bits of them (rule R57; log entry 12). -/
structure Sample where
  secCount : Nat
  dbCount : Nat
  btnN : Lines3
  deriving DecidableEq, Repr

/-- A drive event (rule R81): one write of one bit on one output port; `true` is level 1. `secClr` is
the pulse of rule R32. -/
inductive Event where
  | secClr
  | data (b : Bool)
  | clk (b : Bool)
  | stb (b : Bool)
  | bank (q : Quantity) (b : Bool)
  deriving DecidableEq, Repr

/-- What the environment presents during one pass: `rst` (none when it stays 0; `some k` when it is
asserted once the pass has emitted k events, rule R210) and the sample record. -/
structure Draw where
  rst : Option Nat
  inp : Sample
  deriving DecidableEq, Repr

/-- One entry of the model's stimulus queue: an operation word, or the environment's draw for one
pass (rule R85; log entry 3). -/
inductive Stimulus where
  | op (w : Nat)
  | env (d : Draw)
  deriving DecidableEq, Repr

/-- The operations of rule R82, in the order of their codes, with the operands their rules give them,
and the reserved code 0xF of rule R83. -/
inductive Instr where
  | reset
  | pass (inp : Sample)
  | secPoll (inp : Sample)
  | gateCheck (inp : Sample)
  | dbPass (inp : Sample)
  | edge (i : Quantity) (inp : Sample)
  | incSec
  | incMin
  | incHour
  | dispStep
  | encode (v : BitVec 6)
  | shiftBit (b : Bool)
  | serialize (p : Pattern)
  | strobe
  | bankSwitch (old new : Quantity)
  | reserved
  deriving DecidableEq, Repr

/-- A line of the stimulus programs of rule R85, comments apart. -/
inductive StimulusLine where
  | reset
  | pass (inp : Sample)
  | passTimes (n : Nat) (inp : Sample)
  deriving DecidableEq, Repr

end Sys2Proof
end

