-- ==== Sys2Proof/WellFormed.lean ====
section
/-! DEFINITION. Which terms are well formed: a sample record that fits the ports, and the operands that
rule R83 does not refuse. -/

namespace Sys2Proof

/-- The record holds counts of SEC_W and DB_W bits (rules R50, R57). -/
def Sample.fits (p : Params) (inp : Sample) : Bool :=
  decide (inp.secCount < 2 ^ p.secW) && decide (inp.dbCount < 2 ^ p.dbW)

/-- ENCODE's operand is "an integer v in 0..59" (rule R122). -/
def encodeOperandLegal (v : BitVec 6) : Bool := decide (v.toNat ≤ 59)

/-- SERIALIZE's operand is a pattern with bit 15 clear: rule R83 refuses "a pattern with bit 15 set". -/
def patternLegal (p : Pattern) : Bool := !p.getLsbD 15

/-- The operands of an operation are well formed under the parameters. -/
def Instr.wellFormed (p : Params) : Instr → Bool
  | .reset => true
  | .pass inp => inp.fits p
  | .secPoll inp => inp.fits p
  | .gateCheck inp => inp.fits p
  | .dbPass inp => inp.fits p
  | .edge _ inp => inp.fits p
  | .incSec => true
  | .incMin => true
  | .incHour => true
  | .dispStep => true
  | .encode v => encodeOperandLegal v
  | .shiftBit _ => true
  | .serialize q => patternLegal q
  | .strobe => true
  | .bankSwitch _ _ => true
  | .reserved => true

end Sys2Proof
end

