-- ==== Sys2Proof/Decode.lean ====
section
/-! DEFINITION. The codes of 30_encoding.md: cursor codes (R74), event codes (R81), the sample-record
word (R80), operation codes (R82), and the operation words the model's stimulus queue holds. An operation
word is the concatenation of the operand and the 4-bit operation code, code lowest; the spec gives the
codes and the R80 word only, the rest of the layout is a DESIGN CHOICE (log entry 2). -/

namespace Sys2Proof

/-! ### Quantities -/

/-- The cursor codes of rule R74. -/
def Quantity.code : Quantity → Code2
  | .seconds => 0b00#2
  | .minutes => 0b01#2
  | .hours => 0b10#2

/-- The bank and button index of rule R74: the number its code stands for. -/
def Quantity.index : Quantity → Nat
  | .seconds => 0
  | .minutes => 1
  | .hours => 2

/-- The state a cursor code names; code 0b11 is unused (rules R74, R83). -/
def Quantity.ofCode (c : Code2) : Option Quantity :=
  match c.toNat with
  | 0 => some .seconds
  | 1 => some .minutes
  | 2 => some .hours
  | _ => none

/-! ### Drive events -/

/-- The code `(port[2:0], level)` of a port number and a level (rule R81). -/
def portCode (port : Nat) (level : Bool) : BitVec 4 := BitVec.ofNat 4 (2 * port + level.toNat)

/-- The event codes of rule R81. -/
def Event.code : Event → BitVec 4
  | .secClr => portCode 0 true
  | .data b => portCode 1 b
  | .clk b => portCode 2 b
  | .stb b => portCode 3 b
  | .bank q b => portCode (4 + q.index) b

/-- The event a code stands for; codes 0x0, 0xE and 0xF are unused (rules R81, R83). -/
def Event.ofCode (c : BitVec 4) : Option Event :=
  match c.toNat with
  | 1 => some .secClr
  | 2 => some (.data false)
  | 3 => some (.data true)
  | 4 => some (.clk false)
  | 5 => some (.clk true)
  | 6 => some (.stb false)
  | 7 => some (.stb true)
  | 8 => some (.bank .seconds false)
  | 9 => some (.bank .seconds true)
  | 10 => some (.bank .minutes false)
  | 11 => some (.bank .minutes true)
  | 12 => some (.bank .hours false)
  | 13 => some (.bank .hours true)
  | _ => none

/-! ### The sample-record word -/

/-- The width of the sample-record word, SEC_W + DB_W + 3 bits (rule R80). -/
def sampleWidth (p : Params) : Nat := p.secW + p.dbW + 3

/-- The sample-record word of rule R80: `sec_count[SEC_W-1:0]` above `db_count[DB_W-1:0]` above btn_n. That a
count wider than its port, which rule R85 does not exclude, is cut to the port's bits is a DESIGN CHOICE (log
entry 20). -/
def packSample (p : Params) (inp : Sample) : Nat :=
  (inp.secCount % 2 ^ p.secW * 2 ^ p.dbW + inp.dbCount % 2 ^ p.dbW) * 8 + inp.btnN.toNat

/-- The sample record of a rule R80 word. -/
def unpackSample (p : Params) (n : Nat) : Sample where
  secCount := n / 8 / 2 ^ p.dbW % 2 ^ p.secW
  dbCount := n / 8 % 2 ^ p.dbW
  btnN := BitVec.ofNat 3 n

/-! ### Operation words -/

/-- The operation codes of rule R82. -/
def Instr.opcode : Instr → Nat
  | .reset => 0x0
  | .pass _ => 0x1
  | .secPoll _ => 0x2
  | .gateCheck _ => 0x3
  | .dbPass _ => 0x4
  | .edge _ _ => 0x5
  | .incSec => 0x6
  | .incMin => 0x7
  | .incHour => 0x8
  | .dispStep => 0x9
  | .encode _ => 0xA
  | .shiftBit _ => 0xB
  | .serialize _ => 0xC
  | .strobe => 0xD
  | .bankSwitch _ _ => 0xE
  | .reserved => 0xF

/-- Why an operation word stands for no operation. -/
inductive DecodeError where
  /-- A bit above the operation's operand is set. -/
  | excessBits
  /-- EDGE's index is 3: rule R151 has "the button index i in 0..2". -/
  | unusedButtonIndex
  /-- BANK_SWITCH names cursor code 0b11, which rule R83 refuses. -/
  | unusedCursorCode
  deriving DecidableEq, Repr

/-- An operation without operands: every bit above the code is 0. -/
def decodePlain (operand : Nat) (i : Instr) : Except DecodeError Instr :=
  if operand = 0 then .ok i else .error .excessBits

/-- An operation whose operand has `width` bits: every bit above it is 0. -/
def decodeOperand (width operand : Nat) (k : Nat → Except DecodeError Instr) : Except DecodeError Instr :=
  if operand < 2 ^ width then k operand else .error .excessBits

/-- An operation whose operand is a sample record. -/
def decodeSample (p : Params) (operand : Nat) (k : Sample → Instr) : Except DecodeError Instr :=
  decodeOperand (sampleWidth p) operand fun n => .ok (k (unpackSample p n))

/-- EDGE: a button index in the operand's two low bits, the sample record above it. -/
def decodeEdge (p : Params) (operand : Nat) : Except DecodeError Instr :=
  decodeOperand (sampleWidth p + 2) operand fun n =>
    match Quantity.ofCode (BitVec.ofNat 2 n) with
    | some i => .ok (.edge i (unpackSample p (n / 4)))
    | none => .error .unusedButtonIndex

/-- BANK_SWITCH: the new state's code in the operand's two low bits, the old state's code above it. -/
def decodeBankSwitch (operand : Nat) : Except DecodeError Instr :=
  decodeOperand 4 operand fun n =>
    match Quantity.ofCode (BitVec.ofNat 2 (n / 4)), Quantity.ofCode (BitVec.ofNat 2 n) with
    | some old, some new => .ok (.bankSwitch old new)
    | _, _ => .error .unusedCursorCode

/-- The operation an operation word stands for: the code in bits 3..0 (rule R82), the operand above. -/
def decode (p : Params) (w : Nat) : Except DecodeError Instr :=
  match w % 16 with
  | 0x0 => decodePlain (w / 16) .reset
  | 0x1 => decodeSample p (w / 16) .pass
  | 0x2 => decodeSample p (w / 16) .secPoll
  | 0x3 => decodeSample p (w / 16) .gateCheck
  | 0x4 => decodeSample p (w / 16) .dbPass
  | 0x5 => decodeEdge p (w / 16)
  | 0x6 => decodePlain (w / 16) .incSec
  | 0x7 => decodePlain (w / 16) .incMin
  | 0x8 => decodePlain (w / 16) .incHour
  | 0x9 => decodePlain (w / 16) .dispStep
  | 0xA => decodeOperand 6 (w / 16) fun n => .ok (.encode (BitVec.ofNat 6 n))
  | 0xB => decodeOperand 1 (w / 16) fun n => .ok (.shiftBit (decide (n = 1)))
  | 0xC => decodeOperand 16 (w / 16) fun n => .ok (.serialize (BitVec.ofNat 16 n))
  | 0xD => decodePlain (w / 16) .strobe
  | 0xE => decodeBankSwitch (w / 16)
  | _ => decodePlain (w / 16) .reserved

/-- The operand bits of an operation word. -/
def operandWord (p : Params) : Instr → Nat
  | .reset => 0
  | .pass inp => packSample p inp
  | .secPoll inp => packSample p inp
  | .gateCheck inp => packSample p inp
  | .dbPass inp => packSample p inp
  | .edge i inp => packSample p inp * 4 + i.index
  | .incSec => 0
  | .incMin => 0
  | .incHour => 0
  | .dispStep => 0
  | .encode v => v.toNat
  | .shiftBit b => b.toNat
  | .serialize q => q.toNat
  | .strobe => 0
  | .bankSwitch old new => old.index * 4 + new.index
  | .reserved => 0

/-- The operation word of an operation: its operand above its 4-bit code. -/
def encode (p : Params) (i : Instr) : Nat := operandWord p i * 16 + i.opcode

/-- The operation the decoder reads from the `nbits` low bits of w, under the default widths of rule R7
(those State.reset carries). -/
def decodeTableWord (nbits w : Nat) : Option Instr :=
  (decode Params.part (w % 2 ^ nbits)).toOption

/-! ### Stimulus programs -/

/-- The operations a line of a stimulus program stands for (rule R85): `PASS*<n>` "is n consecutive
`PASS` lines with the same sample record". -/
def StimulusLine.expand : StimulusLine → List Instr
  | .reset => [.reset]
  | .pass inp => [.pass inp]
  | .passTimes n inp => List.replicate n (.pass inp)

/-- The word a line is written with: its rule R80 word; RESET has none (rule R85). A count wider than its port
is cut to the port's bits (DESIGN CHOICE, log entry 20). -/
def StimulusLine.inWord (p : Params) : StimulusLine → Option Nat
  | .reset => none
  | .pass inp => some (packSample p inp)
  | .passTimes _ inp => some (packSample p inp)

/-- A stimulus program as the queue of operation words it stands for. -/
def assemble (p : Params) (prog : List StimulusLine) : List Stimulus :=
  (prog.flatMap StimulusLine.expand).map fun i => .op (encode p i)

end Sys2Proof
end

