-- ==== Sys2Proof/Machine/State.lean ====
section
/-! DEFINITION. The state of the Digital-Clock core (10_state.md), what its environment holds, the ways a
step can stop, and the state after reset. -/

namespace Sys2Proof.Machine

/-- The Time Model registers (rules R21, R22, R23), plain unsigned binary (rule R71). -/
structure Time where
  second : BitVec 6
  minute : BitVec 6
  hour : BitVec 4
  deriving DecidableEq, Repr

/-- The output registers (rules R27, R29); `true` is level 1. `sec_clr` has none (rule R32). -/
structure Outputs where
  srData : Bool
  srClk : Bool
  srStrobe : Bool
  bankN : Lines3
  deriving DecidableEq, Repr

/-- The external shift register and its output latches (rule R132): environment, never read by the
block (rule R36). `shift` holds the last 16 levels taken, the newest in bit 0 (log entry 11). -/
structure Devices where
  shift : Pattern
  latch : Pattern
  deriving DecidableEq, Repr

/-- The values that live only inside a pass: the conditions of rule R34 and the pattern of rule R31.
The model's own; a pass ends with `Transient.clear` (log entry 6). -/
structure Transient where
  tickHit : Option Bool
  gateHit : Option Bool
  fire : Lines3
  pattern : Option Pattern
  deriving DecidableEq, Repr

/-- No transient value: what every pass boundary shows (rules R31, R34). -/
def Transient.clear : Transient where
  tickHit := none
  gateHit := none
  fire := 0#3
  pattern := none

/-- The machine. The first four fields are the block's registers, all of rule R20. The rest is the
model's own: the pass's event list (rule R8), the transients of a pass in progress, the external
devices (rule R36), the parameters (rule R7) and the environment's supply of inputs (rule R52). -/
structure State where
  /-- `second`, `minute`, `hour` (rules R21 to R23). -/
  time : Time
  /-- `prev[2:0]` (rule R25). -/
  prev : Lines3
  /-- `cursor[1:0]` (rules R26, R74). -/
  cursor : Code2
  /-- `sr_data`, `sr_clk`, `sr_strobe`, `bank_n[2:0]` (rules R27, R29). -/
  out : Outputs
  /-- The drive events emitted since the pass began, oldest first (rules R81, R171; log entry 7). -/
  events : List Event
  /-- What a pass in progress has computed (rules R31, R34; log entry 6). -/
  transient : Transient
  /-- The external shift register and latches (rule R132; log entry 11). -/
  devices : Devices
  /-- The parameters of rule R7: the model's argument, which no step writes (log entry 1). -/
  params : Params
  /-- What is still to be applied (rule R85; log entry 3). -/
  stimulus : List Stimulus
  /-- How many free draws have been made (rule R52; log entry 4). -/
  draws : Nat
  deriving DecidableEq, Repr

/-- The block has no fault outcome (rules R190, R193, R194), so no fault exists: the type is empty
and no step can answer one (log entry 15). Safe: there is nothing a claim could exclude by it. -/
inductive Fault where
  deriving DecidableEq, Repr

/-- Why a step gives no next state (rule R194(b)). -/
inductive Refusal where
  /-- Raised by exec's arm of an operation that has no meaning yet. Safe: nothing is claimed of it. -/
  | notModelled (mnemonic : String)
  /-- Raised by operation code 0xF: "a model refuses it" (rules R82, R83). Safe. -/
  | reservedCode
  /-- Raised by every operation but RESET when the parameters are illegal: SEC_THRESHOLD = 0 (rule R176)
  or a width outside rule R7 (rule R194(b)). Safe: no claim speaks of such a part. -/
  | illegalParameter
  /-- Raised by every operation but RESET from a state rule R37 calls ill-formed (rule R194(b)). Safe:
  the hardware's behaviour there is unknown. -/
  | illFormedState
  /-- Raised by ENCODE on 60..63 and by SERIALIZE on a pattern with bit 15 set: terms rule R83
  refuses. Safe. -/
  | operandOutOfRange
  /-- Raised by step when the operation word decodes to no operation. Safe: no port of the hardware
  carries such a word (rule R82). -/
  | undecodable (why : DecodeError)
  deriving DecidableEq, Repr

/-- 12:00:00, the time after reset (rules R21, R22, R23). -/
def Time.reset : Time where
  second := 0#6
  minute := 0#6
  hour := 12#4

/-- The reset levels of the output registers (rules R27, R29). -/
def Outputs.reset : Outputs where
  srData := false
  srClk := true
  srStrobe := false
  bankN := 0b111#3

/-- The external devices when power comes on: free values (rule R213(b), I12; log entry 11). -/
def Devices.powerOn : Devices where
  shift := Config.shiftAtPowerOn
  latch := Config.latchAtPowerOn

/-- The state after reset (rule R210, table 10_state.md section 8) of a part with the parameters p. -/
def State.resetOf (p : Params) : State where
  time := Time.reset
  prev := 0b111#3
  cursor := Quantity.hours.code
  out := Outputs.reset
  events := []
  transient := Transient.clear
  devices := Devices.powerOn
  params := p
  stimulus := []
  draws := 0

/-- The machine right after reset (rule R210): the default widths and comparison of rule R7, the OPEN
thresholds free (log entry 1). -/
def State.reset : State := State.resetOf Params.part

end Sys2Proof.Machine
end

