-- ==== Sys2Proof/Machine/Operands.lean ====
section
/-! DEFINITION. Where operations take their operands from (rules R51, R54, R57, R77), the selector of rules
R120 and R121, and the three-line registers indexed by quantity. -/

namespace Sys2Proof.Machine

/-- Line i of three (rules R25, R29, R50). -/
def line (v : Lines3) (i : Quantity) : Bool := v.getLsbD i.index

/-- The three lines with line i set to b and the others as they were. -/
def setLine (v : Lines3) (i : Quantity) (b : Bool) : Lines3 :=
  if b then v ||| (1#3 <<< i.index) else v &&& ~~~(1#3 <<< i.index)

/-- `sample(sec_count)`: a read takes SEC_W bits (rules R51, R57; log entry 12). -/
def sampleSec (p : Params) (inp : Sample) : BitVec p.secW := BitVec.ofNat p.secW inp.secCount

/-- The high byte `sec_count[SEC_W-1:SEC_W-8]` (rules R54(a), R77). -/
def highByte (p : Params) (inp : Sample) : BitVec 8 := (sampleSec p inp).extractLsb' (p.secW - 8) 8

/-- `sample(db_count)`: a read takes DB_W bits (rules R51, R57; log entry 12). -/
def sampleDb (p : Params) (inp : Sample) : BitVec p.dbW := BitVec.ofNat p.dbW inp.dbCount

/-- `sample(btn_n[i])`: `true` is 1, released (rules R51, R75). -/
def sampleBtn (inp : Sample) (i : Quantity) : Bool := line inp.btnN i

/-- The cursor successor of rule R120. -/
def nextQuantity : Quantity → Quantity
  | .seconds => .minutes
  | .minutes => .hours
  | .hours => .seconds

/-- The field select of rule R121, zero-extended to an integer (rule R77). -/
def field (t : Time) : Quantity → Nat
  | .seconds => t.second.toNat
  | .minutes => t.minute.toNat
  | .hours => t.hour.toNat

/-- ENCODE's operand is "an integer v in 0..59" (rules R83, R122; log entry 14). -/
def valueInRange (v : BitVec 6) : Bool := decide (v.toNat ≤ 59)

/-- SERIALIZE's operand has bit 15 clear: rule R83 refuses "a pattern with bit 15 set" (log entry 14). -/
def patternInRange (p : Pattern) : Bool := !p.getLsbD 15

end Sys2Proof.Machine
end

