-- ==== Sys2Proof/Machine/Flags.lean ====
section
/-! DEFINITION. The transient conditions of rule R34: `tick_hit`, `gate_hit`, `fire[i]`, and the legality
conditions of rules R37 and R194. The block has no flags. -/

namespace Sys2Proof.Machine

/-- `tick_hit` (rule R170): the high byte of sec_count equals SEC_THRESHOLD. -/
def tickHit (p : Params) (inp : Sample) : Bool := decide (highByte p inp = p.secThreshold)

/-- `gate_hit` (rule R150), by the comparison GATE_CMP. -/
def gateHit (p : Params) (inp : Sample) : Bool :=
  match p.gateCmp with
  | .eq => decide (sampleDb p inp = p.dbThreshold)
  | .ge => decide (p.dbThreshold ≤ sampleDb p inp)

/-- `fire[i]` (rules R79, R151): the recorded level is 0 and the sampled level is 1. -/
def fires (prev : Lines3) (inp : Sample) (i : Quantity) : Bool := !line prev i && sampleBtn inp i

/-- The parameters are legal: SEC_W ≥ 8, SEC_THRESHOLD ≠ 0, DB_W ≥ 1 (rules R7, R176, R194(b)). The
other ranges of rule R7 hold by the types of `Params` (log entry 1). -/
def legalParams (p : Params) : Bool :=
  decide (8 ≤ p.secW) && decide (p.secThreshold ≠ 0#8) && decide (1 ≤ p.dbW)

/-- The time is in range: the first three conditions of rule R37. -/
def legalTime (t : Time) : Bool :=
  decide (t.second.toNat ≤ 59) && decide (t.minute.toNat ≤ 59) &&
    decide (1 ≤ t.hour.toNat) && decide (t.hour.toNat ≤ 12)

/-- A well-formed block state (rule R37): the time in range and the cursor one of the three codes. -/
def wellFormed (s : State) : Bool := legalTime s.time && (Quantity.ofCode s.cursor).isSome

end Sys2Proof.Machine
end

