-- ==== Sys2Proof/Machine/Events.lean ====
section
/-! DEFINITION. What a drive event does: to the output registers (rules R10, R28, R81) and to the external
devices (rule R132); and the pin-change trace of rule R81. -/

namespace Sys2Proof.Machine

/-- A drive event sets its port's register; SEC_CLR sets none (rules R10, R28, R32). -/
def driveOutputs (o : Outputs) : Event → Outputs
  | .secClr => o
  | .data b => { o with srData := b }
  | .clk b => { o with srClk := b }
  | .stb b => { o with srStrobe := b }
  | .bank q b => { o with bankN := setLine o.bankN q b }

/-- The shift register takes a level into its first stage (rule R132(a)). -/
def shiftIn (p : Pattern) (b : Bool) : Pattern := (p <<< 1) ||| (BitVec.ofBool b).setWidth 16

/-- What the external devices do at an event, given the levels before it: a rising edge of sr_clk takes
sr_data (rule R132(a)); the falling edge of sr_strobe transfers to the latches (rule R132(b), §6). -/
def seeEvent (d : Devices) (before : Outputs) : Event → Devices
  | .clk true => if before.srClk then d else { d with shift := shiftIn d.shift before.srData }
  | .stb false => if before.srStrobe then { d with latch := d.shift } else d
  | .clk false => d
  | .stb true => d
  | .secClr => d
  | .data _ => d
  | .bank _ _ => d

/-- The event changes its port's level, or is SEC_CLR, which the pin-change trace keeps (rule R81). -/
def changesPin (before : Outputs) (e : Event) : Bool :=
  match e with
  | .secClr => true
  | .data b => before.srData != b
  | .clk b => before.srClk != b
  | .stb b => before.srStrobe != b
  | .bank q b => line before.bankN q != b

/-- The pin-change trace of an event list from given levels (rule R81): "the event list with every event
removed that does not change its port's level, `SEC_CLR` kept". -/
def pinChanges (before : Outputs) : List Event → List Event
  | [] => []
  | e :: es =>
    if changesPin before e then e :: pinChanges (driveOutputs before e) es
    else pinChanges (driveOutputs before e) es

end Sys2Proof.Machine
end

