-- ==== Sys2Proof/Machine/Ops.lean ====
section
/-! DEFINITION. The named operations over the state: field updates, `emit` (rule R10), the refusals of rule
R194(b), and RESET's effect on the block (rule R210), the only way control leaves the pass sequence
(rule R193). The block takes no exception, so there is no exception entry and no return. -/

namespace Sys2Proof.Machine

/-- Writes the Time Model registers. -/
def setTime (s : State) (t : Time) : State := { s with time := t }

/-- Writes `prev[2:0]`. -/
def setPrev (s : State) (v : Lines3) : State := { s with prev := v }

/-- Writes the cursor. -/
def setCursor (s : State) (q : Quantity) : State := { s with cursor := q.code }

/-- Records `tick_hit` while the pass lasts (rule R34). -/
def noteTick (s : State) (b : Bool) : State := { s with transient := { s.transient with tickHit := some b } }

/-- Records `gate_hit` while the pass lasts (rule R34). -/
def noteGate (s : State) (b : Bool) : State := { s with transient := { s.transient with gateHit := some b } }

/-- Records `fire[i]` while the pass lasts (rule R34). -/
def noteFire (s : State) (i : Quantity) (b : Bool) : State :=
  { s with transient := { s.transient with fire := setLine s.transient.fire i b } }

/-- Holds the pattern while the pass lasts (rule R31). -/
def notePattern (s : State) (p : Pattern) : State := { s with transient := { s.transient with pattern := some p } }

/-- Begins a pass: the event list is empty (rule R171) and nothing is computed yet. -/
def beginPass (s : State) : State := { s with events := [], transient := Transient.clear }

/-- Ends a pass: its transient values are discarded (rules R31, R34). -/
def endPass (s : State) : State := { s with transient := Transient.clear }

/-- `emit E` (rule R10): appends the event, sets its output register, and the devices see it (rule R58). -/
def emit (s : State) (e : Event) : State :=
  { s with
    out := driveOutputs s.out e
    devices := seeEvent s.devices s.out e
    events := s.events ++ [e] }

/-- Emits events in order (rule R59). -/
def emitAll (s : State) : List Event → State
  | [] => s
  | e :: es => emitAll (emit s e) es

/-- RESET's effect on the block (rule R210): the reset values of every register. The external devices
are not touched; parameters and the supply of inputs are not the block's. -/
def resetBlock (s : State) : State :=
  { s with
    time := Time.reset
    prev := 0b111#3
    cursor := Quantity.hours.code
    out := Outputs.reset
    transient := Transient.clear }

/-- A pass that `rst` abandons after the events es (rule R210): those events have happened, the block
holds its reset values, nothing else of the pass remains. -/
def abandonAfter (s : State) (es : List Event) : State := resetBlock (emitAll { s with events := [] } es)

/-- Runs an operation where the parameters are legal and the state is well formed, handing it the state
the cursor names; refuses by name elsewhere (rules R37, R176, R194; log entry 9). -/
def guarded (s : State) (k : Quantity → State) : Host.Outcome State Fault Refusal :=
  if legalParams s.params then
    if legalTime s.time then
      match Quantity.ofCode s.cursor with
      | some q => .next (k q)
      | none => .refused .illFormedState
    else .refused .illFormedState
  else .refused .illegalParameter

end Sys2Proof.Machine
end

