-- ==== Sys2Proof/Machine/TimeModel.lean ====
section
/-! DEFINITION. The Time Model, 40_time_model.md: INC_HOUR (R101), INC_MIN (R102), INC_SEC (R103). -/

namespace Sys2Proof.Machine

/-- `increment_hours` (rule R101). -/
def incHour (t : Time) : Time :=
  if t.hour = 12#4 then { t with hour := 1#4 } else { t with hour := t.hour + 1#4 }

/-- `increment_minutes` (rule R102), with its cascade. -/
def incMin (t : Time) : Time :=
  if t.minute = 59#6 then incHour { t with minute := 0#6 } else { t with minute := t.minute + 1#6 }

/-- `increment_seconds` (rule R103), with its cascade. -/
def incSec (t : Time) : Time :=
  if t.second = 59#6 then incMin { t with second := 0#6 } else { t with second := t.second + 1#6 }

/-- INC_HOUR (rules R100, R101). -/
def execIncHour (s : State) : Host.Outcome State Fault Refusal :=
  guarded s fun _ => setTime s (incHour s.time)

/-- INC_MIN (rules R100, R102). -/
def execIncMin (s : State) : Host.Outcome State Fault Refusal :=
  guarded s fun _ => setTime s (incMin s.time)

/-- INC_SEC (rules R100, R103). -/
def execIncSec (s : State) : Host.Outcome State Fault Refusal :=
  guarded s fun _ => setTime s (incSec s.time)

end Sys2Proof.Machine
end

