-- ==== Sys2Proof/Machine/InputDebouncer.lean ====
section
/-! DEFINITION. The Input Debouncer, 42_input_debouncer.md: GATE_CHECK (R150), EDGE (R151), DB_PASS (R152)
and the action mapping (R153). -/

namespace Sys2Proof.Machine

/-- ACTION (rule R153): button 0 is INC_SEC, button 1 INC_MIN, button 2 INC_HOUR. -/
def action (t : Time) : Quantity → Time
  | .seconds => incSec t
  | .minutes => incMin t
  | .hours => incHour t

/-- GATE_CHECK (rule R150): computes `gate_hit`. -/
def gateCheck (inp : Sample) (s : State) : State := noteGate s (gateHit s.params inp)

/-- The increment EDGE runs when `fire[i]` holds (rule R151). -/
def fireAction (i : Quantity) (fire : Bool) (s : State) : State :=
  if fire then setTime s (action s.time i) else s

/-- EDGE (rule R151): the action on a release edge, then the level is stored whether or not it fired. -/
def edge (i : Quantity) (inp : Sample) (s : State) : State :=
  let fire := fires s.prev inp i
  let s' := fireAction i fire (noteFire s i fire)
  setPrev s' (setLine s'.prev i (sampleBtn inp i))

/-- DB_PASS (rule R152): EDGE for buttons 0, 1, 2 in that order. -/
def dbPass (inp : Sample) (s : State) : State :=
  edge .hours inp (edge .minutes inp (edge .seconds inp s))

/-- GATE_CHECK (rule R150). -/
def execGateCheck (inp : Sample) (s : State) : Host.Outcome State Fault Refusal :=
  guarded s fun _ => gateCheck inp s

/-- EDGE (rule R151), whatever gate_hit is (log entry 5). -/
def execEdge (i : Quantity) (inp : Sample) (s : State) : Host.Outcome State Fault Refusal :=
  guarded s fun _ => edge i inp s

/-- DB_PASS (rule R152), whatever gate_hit is: PASS tests it (rule R171; log entry 5). -/
def execDbPass (inp : Sample) (s : State) : Host.Outcome State Fault Refusal :=
  guarded s fun _ => dbPass inp s

end Sys2Proof.Machine
end

