-- ==== Sys2Proof/Machine/DisplayDriver.lean ====
section
/-! DEFINITION. The Display Driver, 41_display_driver.md: ENCODE (R122), SHIFT_BIT (R124), SERIALIZE (R125),
STROBE (R126), BANK_SWITCH (R127), DISP_STEP (R128). -/

namespace Sys2Proof.Machine

/-- ENCODE (rules R72, R73, R122): the ones bit, and a tens bit when the tens digit is not 0. -/
def encodePattern (v : Nat) : Pattern :=
  (1#16 <<< (v % 10)) ||| (if v / 10 ≠ 0 then 1#16 <<< (9 + v / 10) else 0#16)

/-- The events of SHIFT_BIT (rule R124). -/
def shiftBitEvents (b : Bool) : List Event := [.data b, .clk false, .clk true]

/-- The bit indices in the order SERIALIZE sends them, 15 down to 0 (rule R125). -/
def msbFirst : List Nat := [15, 14, 13, 12, 11, 10, 9, 8, 7, 6, 5, 4, 3, 2, 1, 0]

/-- The events of SERIALIZE (rule R125): SHIFT_BIT of each bit, most significant first. -/
def serializeEvents (p : Pattern) : List Event := msbFirst.flatMap fun k => shiftBitEvents (p.getLsbD k)

/-- The events of STROBE (rule R126). -/
def strobeEvents : List Event := [.stb true, .stb false]

/-- The events of BANK_SWITCH (rule R127): disable the previous bank, then enable the new one. -/
def bankSwitchEvents (old new : Quantity) : List Event := [.bank old true, .bank new false]

/-- The 52 events of a display step (rule R128). -/
def displayEvents (old new : Quantity) (p : Pattern) : List Event :=
  serializeEvents p ++ strobeEvents ++ bankSwitchEvents old new

/-- DISP_STEP (rule R128) from the cursor state `old`. -/
def dispStep (old : Quantity) (s : State) : State :=
  let new := nextQuantity old
  let p := encodePattern (field s.time new)
  emitAll (notePattern (setCursor s new) p) (displayEvents old new p)

/-- ENCODE (rule R122); a value 60..63 is refused (rule R83). The pattern is a transient (rule R31). -/
def execEncode (v : BitVec 6) (s : State) : Host.Outcome State Fault Refusal :=
  if valueInRange v then guarded s fun _ => notePattern s (encodePattern v.toNat)
  else .refused .operandOutOfRange

/-- SHIFT_BIT (rule R124). -/
def execShiftBit (b : Bool) (s : State) : Host.Outcome State Fault Refusal :=
  guarded s fun _ => emitAll s (shiftBitEvents b)

/-- SERIALIZE (rule R125); a pattern with bit 15 set is refused (rule R83). -/
def execSerialize (p : Pattern) (s : State) : Host.Outcome State Fault Refusal :=
  if patternInRange p then guarded s fun _ => emitAll s (serializeEvents p)
  else .refused .operandOutOfRange

/-- STROBE (rule R126). -/
def execStrobe (s : State) : Host.Outcome State Fault Refusal :=
  guarded s fun _ => emitAll s strobeEvents

/-- BANK_SWITCH (rule R127), on any two cursor states (log entry 13). -/
def execBankSwitch (old new : Quantity) (s : State) : Host.Outcome State Fault Refusal :=
  guarded s fun _ => emitAll s (bankSwitchEvents old new)

/-- DISP_STEP (rule R128). -/
def execDispStep (s : State) : Host.Outcome State Fault Refusal :=
  guarded s fun old => dispStep old s

end Sys2Proof.Machine
end

