-- ==== Sys2Proof/Machine/ControlLoop.lean ====
section
/-! DEFINITION. The Control Loop, 43_control_loop.md, and RESET, 70_reset_and_hazards.md: SEC_POLL (R170),
PASS (R171), RESET (R210), the reserved code (R83), and one pass as the environment presents it. -/

namespace Sys2Proof.Machine

/-- What a tick does (rule R170): SEC_CLR, then INC_SEC. -/
def tickEffect (tick : Bool) (s : State) : State :=
  if tick then setTime (emit s .secClr) (incSec s.time) else s

/-- SEC_POLL (rule R170). -/
def secPoll (inp : Sample) (s : State) : State :=
  let tick := tickHit s.params inp
  tickEffect tick (noteTick s tick)

/-- P2 of a pass (rule R171): the gate check, and the debounce pass if it holds. -/
def gatePhase (inp : Sample) (s : State) : State :=
  if gateHit s.params inp then dbPass inp (gateCheck inp s) else gateCheck inp s

/-- PASS (rule R171) from the cursor state `old`: P1, P2, P3 in order. -/
def pass (inp : Sample) (old : Quantity) (s : State) : State :=
  endPass (dispStep old (gatePhase inp (secPoll inp (beginPass s))))

/-- SEC_POLL (rule R170). -/
def execSecPoll (inp : Sample) (s : State) : Host.Outcome State Fault Refusal :=
  guarded s fun _ => secPoll inp s

/-- PASS (rules R171, R194). -/
def execPass (inp : Sample) (s : State) : Host.Outcome State Fault Refusal :=
  guarded s fun old => pass inp old s

/-- RESET (rule R210), from any state (log entry 8). It emits no event list. -/
def execReset (s : State) : Host.Outcome State Fault Refusal :=
  .next (abandonAfter s [])

/-- Operation code 0xF: "a model refuses it" (rules R82, R83), whatever the state. -/
def execReserved (_s : State) : Host.Outcome State Fault Refusal := .refused .reservedCode

/-- A pass that `rst` abandons once it has emitted k events (rule R210; log entry 10). -/
def abandonedPass (k : Nat) (inp : Sample) (s : State) : Host.Outcome State Fault Refusal :=
  guarded s fun old => abandonAfter s ((pass inp old s).events.take k)

/-- One pass as the environment presents it (rules R172, R210): PASS while `rst` stays 0, RESET when it is
asserted before any event, else a pass abandoned after the events it has emitted. -/
def drawStep (d : Draw) (s : State) : Host.Outcome State Fault Refusal :=
  match d.rst with
  | none => execPass d.inp s
  | some 0 => execReset s
  | some (k + 1) => abandonedPass (k + 1) d.inp s

/-- The n-th free draw (rule R52; log entry 4). -/
def freeDraw (n : Nat) : Draw where
  rst := Config.drawRst n
  inp :=
    { secCount := Config.drawSecCount n
      dbCount := Config.drawDbCount n
      btnN := Config.drawBtnN n }

end Sys2Proof.Machine
end

