-- ==== Sys2Proof/Machine/Dispatch.lean ====
section
/-! DEFINITION. exec: one arm per operation of rule R82, each one call of its meaning. -/

namespace Sys2Proof.Machine

def exec (i : Instr) (s : State) : Host.Outcome State Fault Refusal :=
  match i with
  | .reset => Sys2Proof.Machine.execReset s
  | .pass inp => Sys2Proof.Machine.execPass inp s
  | .secPoll inp => Sys2Proof.Machine.execSecPoll inp s
  | .gateCheck inp => Sys2Proof.Machine.execGateCheck inp s
  | .dbPass inp => Sys2Proof.Machine.execDbPass inp s
  | .edge button inp => Sys2Proof.Machine.execEdge button inp s
  | .incSec => Sys2Proof.Machine.execIncSec s
  | .incMin => Sys2Proof.Machine.execIncMin s
  | .incHour => Sys2Proof.Machine.execIncHour s
  | .dispStep => Sys2Proof.Machine.execDispStep s
  | .encode v => Sys2Proof.Machine.execEncode v s
  | .shiftBit b => Sys2Proof.Machine.execShiftBit b s
  | .serialize p => Sys2Proof.Machine.execSerialize p s
  | .strobe => Sys2Proof.Machine.execStrobe s
  | .bankSwitch old new => Sys2Proof.Machine.execBankSwitch old new s
  | .reserved => Sys2Proof.Machine.execReserved s

end Sys2Proof.Machine
end

