-- ==== Sys2Proof/Machine/Fetch.lean ====
section
/-! DEFINITION. What the next step runs. The block fetches nothing (rule R61): the model's step takes the head
of the stimulus queue, or the free draw of rule R52 when the queue is empty (log entries 3 and 4). -/

namespace Sys2Proof.Machine

/-- What the next step applies, and the state with it taken from its supply. -/
def nextStimulus (s : State) : Stimulus × State :=
  match s.stimulus with
  | [] => (.env (freeDraw s.draws), { s with draws := s.draws + 1 })
  | x :: rest => (x, { s with stimulus := rest })

/-- Runs the operation an operation word stands for; a word that stands for none is refused by name. -/
def runWord (w : Nat) (s : State) : Host.Outcome State Fault Refusal :=
  match decode s.params w with
  | .ok i => exec i s
  | .error e => .refused (.undecodable e)

/-- Applies one stimulus: an operation word, or one pass as the environment presents it. -/
def applyStimulus (x : Stimulus) (s : State) : Host.Outcome State Fault Refusal :=
  match x with
  | .op w => runWord w s
  | .env d => drawStep d s

end Sys2Proof.Machine
end

