-- ==== Sys2Proof/Machine/Step.lean ====
section
/-! DEFINITION. One step of the machine, and where the host places an operation for it. -/

namespace Sys2Proof.Machine

/-- One step (rules R8, R172, R210; log entry 3). -/
def step (s : State) : Host.Outcome State Fault Refusal :=
  applyStimulus (nextStimulus s).1 (nextStimulus s).2

/-- s with the operation word w (its `nbits` low bits) at the head of the stimulus queue, so that the next
step runs it. -/
def State.withFetchWord (s : State) (nbits w : Nat) : State :=
  { s with stimulus := .op (w % 2 ^ nbits) :: s.stimulus }

end Sys2Proof.Machine
end

