-- ==== Sys2Proof/Safety.lean ====
section
/-! DEFINITION. The terms claims use: runs of passes (R172), elapsed time (R105), what the lines and devices
show at each point of an event list (R28, R58, R132), the invariants, and the counter contract (R196). -/

namespace Sys2Proof.Machine

/-- The premise of every claim about an operation that runs: legal parameters and a well-formed state
(rules R37, R194(a)). -/
abbrev Ready (s : State) : Prop := legalParams s.params = true ∧ wellFormed s = true

/-- `T(s)` of rule R105: seconds past 12:00:00, in 0..43199 for a time in range. -/
def Time.elapsed (t : Time) : Nat := t.hour.toNat % 12 * 3600 + t.minute.toNat * 60 + t.second.toNat

/-- The increment operation of a quantity (rules R104, R153). -/
def incrementOf : Quantity → Instr
  | .seconds => .incSec
  | .minutes => .incMin
  | .hours => .incHour

/-- How many seconds an increment of a quantity adds (rule R105). -/
def incrementSize : Quantity → Nat
  | .seconds => 1
  | .minutes => 60
  | .hours => 3600

/-- Consecutive passes with the given sample records: the state after them and the concatenated event
lists (rule R172), or none where a pass is refused. -/
def runPasses (s : State) : List Sample → Option (State × List Event)
  | [] => some (s, [])
  | inp :: rest =>
    match exec (.pass inp) s with
    | .next t => (runPasses t rest).map fun r => (r.1, t.events ++ r.2)
    | .fault _ => none
    | .refused _ => none

/-- The levels of the lines once the events have occurred (rule R28). -/
def outputsAfter (o : Outputs) (es : List Event) : Outputs := es.foldl driveOutputs o

/-- The external devices once the events have occurred on lines that started at o (rules R58, R132). -/
def devicesAfter (o : Outputs) (d : Devices) : List Event → Devices
  | [] => d
  | e :: es => devicesAfter (driveOutputs o e) (seeEvent d o e) es

/-- A bank is enabled: its line is 0 (rules R29, R76). -/
def bankEnabled (o : Outputs) (q : Quantity) : Bool := !line o.bankN q

/-- What a bank lights: the latched pattern while it is enabled (rule R132(d)). -/
def lit (o : Outputs) (d : Devices) (q : Quantity) : Option Pattern :=
  if bankEnabled o q then some d.latch else none

/-- No two banks are enabled (rule R30). -/
abbrev AtMostOneBank (o : Outputs) : Prop :=
  ∀ q r : Quantity, bankEnabled o q = true → bankEnabled o r = true → q = r

/-- Exactly the bank of q is enabled (rule R30). -/
abbrev OnlyBank (o : Outputs) (q : Quantity) : Prop := ∀ r : Quantity, bankEnabled o r = decide (r = q)

/-- No bank is enabled. -/
abbrev NoBank (o : Outputs) : Prop := ∀ r : Quantity, bankEnabled o r = false

/-- The bank lines of a pass boundary: before the first pass no bank is enabled, after it exactly the
cursor's (rule R30). -/
abbrev BanksAtBoundary (s : State) : Prop :=
  NoBank s.out ∨ ∃ q, Quantity.ofCode s.cursor = some q ∧ OnlyBank s.out q

/-- PASS and RESET: the operations rule R85's programs hold, apart from those that only occur inside a pass. -/
def isPassOrReset : Instr → Bool
  | .reset => true
  | .pass _ => true
  | .secPoll _ => false
  | .gateCheck _ => false
  | .dbPass _ => false
  | .edge _ _ => false
  | .incSec => false
  | .incMin => false
  | .incHour => false
  | .dispStep => false
  | .encode _ => false
  | .shiftBit _ => false
  | .serialize _ => false
  | .strobe => false
  | .bankSwitch _ _ => false
  | .reserved => false

/-- A stimulus that is a pass as the environment presents it, or the word of a PASS or a RESET. -/
def passOrReset (p : Params) : Stimulus → Bool
  | .env _ => true
  | .op w =>
    match decode p w with
    | .ok i => isPassOrReset i
    | .error _ => false

/-- The invariant of pass boundaries: a well-formed state (rule R37), the bank lines as rule R30 says, the
clock line at 1 and the strobe at 0 (rules R27, R124, R126), nothing transient (rules R31, R34), and
only passes and resets to come. -/
structure Boundary (s : State) : Prop where
  wellFormed : wellFormed s = true
  banks : BanksAtBoundary s
  clockHigh : s.out.srClk = true
  strobeLow : s.out.srStrobe = false
  noTransient : s.transient = Transient.clear
  supply : ∀ x ∈ s.stimulus, passOrReset s.params x = true

/-- The seconds-reference counter's contract (rule R196): from a count, after `ticks` counter ticks, with
or without a SEC_CLR that took effect at once. -/
def counterAfter (p : Params) (count ticks : Nat) (cleared : Bool) : Nat :=
  ((if cleared then 0 else count) + ticks) % 2 ^ p.secW

/-- The debounce-sample counter's contract (rule R197): from a count, after `ticks` counter ticks. -/
def debounceAfter (p : Params) (count ticks : Nat) : Nat := (count + ticks) % 2 ^ p.dbW

/-- The first count of the poll window, SEC_THRESHOLD * 2^(SEC_W-8) (rule R175). -/
def windowStart (p : Params) : Nat := p.secThreshold.toNat * 2 ^ (p.secW - 8)

/-- The length of the poll window, 2^(SEC_W-8) counter ticks (rule R175). -/
def windowLength (p : Params) : Nat := 2 ^ (p.secW - 8)

/-- How many operand bits stand above an operation code in an operation word (log entry 2). -/
def operandBits (p : Params) : Nat → Nat
  | 0x1 => sampleWidth p
  | 0x2 => sampleWidth p
  | 0x3 => sampleWidth p
  | 0x4 => sampleWidth p
  | 0x5 => sampleWidth p + 2
  | 0xA => 6
  | 0xB => 1
  | 0xC => 16
  | 0xE => 4
  | _ => 0

/-- The block's registers, all of rule R20, of two states agree. -/
abbrev SameBlock (s t : State) : Prop :=
  s.time = t.time ∧ s.prev = t.prev ∧ s.cursor = t.cursor ∧ s.out = t.out

/-- A run of k steps in which no step is refused: the safe run. -/
def runsSafely : Nat → State → Prop
  | 0, _ => True
  | k + 1, s => ∃ t, step s = .next t ∧ runsSafely k t

end Sys2Proof.Machine
end

