-- ==== Sys2Proof/Certificates/Slice0/Obligations.lean ====
section
/-! DEFINITION. The statements for the provers. Each docstring names the rule a statement formalises. The state's
fields `events`, `transient`, `devices`, `params`, `stimulus`, `draws` are the model's own (log entries 1, 3, 4,
6, 7, 11). Where a statement gives the next state as an update of s, every field it does not name is unchanged. -/

open Sys2Proof Sys2Proof.Machine

/-! ### Encodings -/

/-- Every well-formed operation is read back from its word, with every operand. The operand layout is the
model's choice (log entry 2); the codes are rule R82's and the sample word rule R80's. -/
def Obligations.DecodeInvertsEncode : Prop :=
  ∀ (p : Params) (i : Instr), i.wellFormed p = true → decode p (encode p i) = .ok i

/-- No two words stand for one operation: a word that decodes is the word of what it decodes to. The layout is
the model's choice (log entry 2). -/
def Obligations.EncodeInvertsDecode : Prop :=
  ∀ (p : Params) (w : Nat) (i : Instr), decode p w = .ok i → encode p i = w

/-- Words written out from rules R80 and R82 decode to the operations they stand for. The place of the operand
above the code is the model's choice (log entry 2). -/
def Obligations.WrittenWordsDecode : Prop :=
  ∀ p : Params, p.secW = 16 → p.dbW = 8 →
    decode p 0x0 = .ok .reset ∧
    decode p 0x40000071 = .ok (.pass { secCount := 0x8000, dbCount := 0x00, btnN := 0b111#3 }) ∧
    decode p 0x00002053 = .ok (.gateCheck { secCount := 0x0000, dbCount := 0x40, btnN := 0b101#3 }) ∧
    decode p 0x6 = .ok .incSec ∧
    decode p 0xCA = .ok (.encode 12#6) ∧
    decode p 0xF = .ok .reserved

/-- Rule R80: the sample-record word has SEC_W + DB_W + 3 bits (27 for the default widths), btn_n at its bits
2..0, db_count above it, sec_count above that; it loses nothing. -/
def Obligations.SampleWordLayout : Prop :=
  (∀ (p : Params) (inp : Sample), inp.fits p = true →
    packSample p inp < 2 ^ (p.secW + p.dbW + 3) ∧
    (∀ k, k < 3 → (packSample p inp).testBit k = inp.btnN.getLsbD k) ∧
    (∀ k, k < p.dbW → (packSample p inp).testBit (k + 3) = inp.dbCount.testBit k) ∧
    (∀ k, k < p.secW → (packSample p inp).testBit (k + p.dbW + 3) = inp.secCount.testBit k) ∧
    unpackSample p (packSample p inp) = inp) ∧
  (∀ p : Params, p.secW = 16 → p.dbW = 8 → sampleWidth p = 27)

/-- Rule R74: the cursor codes, the unused code, and their numbers as bank and button indices. -/
def Obligations.CursorCodes : Prop :=
  Quantity.seconds.code = 0b00#2 ∧ Quantity.minutes.code = 0b01#2 ∧ Quantity.hours.code = 0b10#2 ∧
  Quantity.ofCode 0b11#2 = none ∧
  (∀ q : Quantity, q.code.toNat = q.index ∧ Quantity.ofCode q.code = some q) ∧
  (∀ (o : Outputs) (inp : Sample) (q : Quantity),
    bankEnabled o q = !o.bankN.getLsbD q.code.toNat ∧ sampleBtn inp q = inp.btnN.getLsbD q.code.toNat)

/-- The event codes of 30_encoding.md section 3: each event's code is its port number above its level, and three
codes are unused. -/
def Obligations.EventCodes : Prop :=
  (∀ e : Event, Event.ofCode e.code = some e) ∧
  (∀ c : BitVec 4, Event.ofCode c = none ↔ c = 0x0#4 ∨ c = 0xE#4 ∨ c = 0xF#4) ∧
  Event.secClr.code.toNat = 2 * 0 + 1 ∧
  (∀ b : Bool, (Event.data b).code.toNat = 2 * 1 + b.toNat ∧ (Event.clk b).code.toNat = 2 * 2 + b.toNat ∧
    (Event.stb b).code.toNat = 2 * 3 + b.toNat ∧ (Event.bank .seconds b).code.toNat = 2 * 4 + b.toNat ∧
    (Event.bank .minutes b).code.toNat = 2 * 5 + b.toNat ∧ (Event.bank .hours b).code.toNat = 2 * 6 + b.toNat)

/-- The pin-change trace of 30_encoding.md section 3: it keeps an event exactly when the event is SEC_CLR or
changes a level, so each event kept, SEC_CLR apart, changes the level the kept ones before it left; and it leaves
every line and device where the event list leaves it (the devices are the model's, log entry 11). -/
def Obligations.PinChangeTraceKeepsLinesAndDevices : Prop :=
  (∀ (o : Outputs) (es : List Event) (e : Event), pinChanges o (es ++ [e]) =
    pinChanges o es ++ (if e = .secClr ∨ driveOutputs (outputsAfter o es) e ≠ outputsAfter o es then [e] else [])) ∧
  (∀ (o : Outputs) (es : List Event) (k : Nat) (e : Event), (pinChanges o es)[k]? = some e → e ≠ .secClr →
    driveOutputs (outputsAfter o ((pinChanges o es).take k)) e ≠ outputsAfter o ((pinChanges o es).take k)) ∧
  (∀ (o : Outputs) (d : Devices) (es : List Event),
    pinChanges o [] = [] ∧
    outputsAfter o (pinChanges o es) = outputsAfter o es ∧
    devicesAfter o d (pinChanges o es) = devicesAfter o d es ∧
    (pinChanges o es).count .secClr = es.count .secClr)

/-! ### The step -/

/-- A step whose next stimulus is an operation word runs the decoded operation, the word taken from the queue; a
word that decodes to none is refused by name. The queue and the words are the model's choice (log entries 2, 3). -/
def Obligations.StepRunsDecodedOperation : Prop :=
  ∀ (s : State) (w : Nat) (rest : List Stimulus), s.stimulus = .op w :: rest →
    (∀ i : Instr, decode s.params w = .ok i → step s = exec i { s with stimulus := rest }) ∧
    (∀ e : DecodeError, decode s.params w = .error e → step s = .refused (.undecodable e))

/-- A step whose next stimulus is the environment's draw runs PASS with its sample record while rst stays 0, and
RESET when rst is asserted before any event; the queue is the model's choice (log entry 3). -/
def Obligations.StepRunsPassOrReset : Prop :=
  ∀ (s : State) (d : Draw) (rest : List Stimulus), s.stimulus = .env d :: rest →
    (d.rst = none → step s = exec (.pass d.inp) { s with stimulus := rest }) ∧
    (d.rst = some 0 → step s = exec .reset { s with stimulus := rest })

/-- With nothing left to apply, a step runs a pass on the next free draw (log entry 4). -/
def Obligations.StepDrawsWhenQueueIsEmpty : Prop :=
  ∀ s : State, s.stimulus = [] →
    step s = step { s with stimulus := [.env (freeDraw s.draws)], draws := s.draws + 1 }

/-! ### Time Model -/

/-- Rule R101: INC_HOUR; minute, second and all else unchanged; an hour outside 1..12 is refused. -/
def Obligations.IncHourWrapsTwelveToOne : Prop :=
  Instr.incHour.opcode = 0x8 ∧
  (∀ s : State, Ready s →
    exec .incHour s = .next { s with time := { s.time with
      hour := if s.time.hour.toNat = 12 then 1#4 else BitVec.ofNat 4 (s.time.hour.toNat + 1) } }) ∧
  (∀ s : State, legalParams s.params = true → s.time.hour.toNat = 0 ∨ 12 < s.time.hour.toNat →
    exec .incHour s = .refused .illFormedState)

/-- Rule R102: INC_MIN with its cascade; second and all else unchanged; a minute above 59 is refused. -/
def Obligations.IncMinCascadesIntoHours : Prop :=
  Instr.incMin.opcode = 0x7 ∧
  (∀ s : State, Ready s →
    (s.time.minute.toNat = 59 → exec .incMin s = .next { s with time := { s.time with
      minute := 0#6
      hour := if s.time.hour.toNat = 12 then 1#4 else BitVec.ofNat 4 (s.time.hour.toNat + 1) } }) ∧
    (s.time.minute.toNat ≠ 59 → exec .incMin s = .next { s with time := { s.time with
      minute := BitVec.ofNat 6 (s.time.minute.toNat + 1) } })) ∧
  (∀ s : State, legalParams s.params = true → 59 < s.time.minute.toNat →
    exec .incMin s = .refused .illFormedState)

/-- Rule R103: INC_SEC with its full cascade; all else unchanged; a second above 59 is refused. -/
def Obligations.IncSecCascadesIntoMinutes : Prop :=
  Instr.incSec.opcode = 0x6 ∧
  (∀ s : State, Ready s →
    (s.time.second.toNat = 59 → s.time.minute.toNat = 59 → exec .incSec s = .next { s with time :=
      { second := 0#6
        minute := 0#6
        hour := if s.time.hour.toNat = 12 then 1#4 else BitVec.ofNat 4 (s.time.hour.toNat + 1) } }) ∧
    (s.time.second.toNat = 59 → s.time.minute.toNat ≠ 59 → exec .incSec s = .next { s with time := { s.time with
      second := 0#6
      minute := BitVec.ofNat 6 (s.time.minute.toNat + 1) } }) ∧
    (s.time.second.toNat ≠ 59 → exec .incSec s = .next { s with time := { s.time with
      second := BitVec.ofNat 6 (s.time.second.toNat + 1) } })) ∧
  (∀ s : State, legalParams s.params = true → 59 < s.time.second.toNat →
    exec .incSec s = .refused .illFormedState)

/-- Rule R104 with the action mapping of rule R153: a tick and a button release leave the time its increment
operation leaves from the same state; a seconds release at second 59 increments the minute. -/
def Obligations.OneCodePathForTickAndButtons : Prop :=
  ∀ (s : State) (inp : Sample), Ready s →
    (∀ i : Quantity, line s.prev i = false → line inp.btnN i = true →
      ∃ t u, exec (.edge i inp) s = .next t ∧ exec (incrementOf i) s = .next u ∧ t.time = u.time) ∧
    (tickHit s.params inp = true →
      ∃ t u, exec (.secPoll inp) s = .next t ∧ exec .incSec s = .next u ∧ t.time = u.time) ∧
    (line s.prev .seconds = false → line inp.btnN .seconds = true → s.time.second.toNat = 59 →
      s.time.minute.toNat ≠ 59 →
      ∃ t, exec (.edge .seconds inp) s = .next t ∧ t.time.minute.toNat = s.time.minute.toNat + 1)

/-- The arithmetic law of 40_time_model.md (an inference the spec marks as its own): the times in range
correspond one to one to 0..43199, and the increments add 1, 60 and 3600 modulo 43200. -/
def Obligations.IncrementsAddModulo43200 : Prop :=
  (∀ t : Time, legalTime t = true → t.elapsed < 43200) ∧
  (∀ n, n < 43200 → ∃ t : Time, legalTime t = true ∧ t.elapsed = n) ∧
  (∀ t u : Time, legalTime t = true → legalTime u = true → t.elapsed = u.elapsed → t = u) ∧
  (∀ (q : Quantity) (s : State), Ready s →
    ∃ t, exec (incrementOf q) s = .next t ∧ legalTime t.time = true ∧
      t.time.elapsed = (s.time.elapsed + incrementSize q) % 43200)

/-- Order independence (an inference the spec marks as its own): any two increments commute, and nothing else
of the state tells the orders apart. -/
def Obligations.IncrementsCommute : Prop :=
  ∀ (q r : Quantity) (s : State), Ready s →
    ∃ t u v, exec (incrementOf q) s = .next t ∧ exec (incrementOf r) s = .next u ∧
      exec (incrementOf r) t = .next v ∧ exec (incrementOf q) u = .next v

/-- Rule R24: an operation other than RESET changes the time only by increments, four at most, and only the
increments, the seconds poll, the edge detector, the debounce pass and the pass change it at all. -/
def Obligations.TimeIsWrittenByIncrementsOnly : Prop :=
  ∀ (i : Instr) (s t : State), i ≠ .reset → exec i s = .next t →
    (∃ qs : List Quantity, qs.length ≤ 4 ∧ t.time = qs.foldl action s.time) ∧
    (t.time ≠ s.time →
      (∃ q, i = incrementOf q) ∨ (∃ inp, i = .secPoll inp ∨ i = .dbPass inp ∨ i = .pass inp ∨ ∃ j, i = .edge j inp))

/-! ### Input Debouncer -/

/-- Rule R150: GATE_CHECK compares the DB_W bits of db_count with DB_THRESHOLD by GATE_CMP; it changes nothing
but the transient gate_hit. -/
def Obligations.GateCheckComparesCount : Prop :=
  ∀ (s : State) (inp : Sample), Ready s →
    (Instr.gateCheck inp).opcode = 0x3 ∧
    exec (.gateCheck inp) s = .next { s with transient := { s.transient with gateHit := some (
      match s.params.gateCmp with
      | .eq => decide (inp.dbCount % 2 ^ s.params.dbW = s.params.dbThreshold.toNat)
      | .ge => decide (s.params.dbThreshold.toNat ≤ inp.dbCount % 2 ^ s.params.dbW)) } }

/-- Rules R79 and R151: EDGE fires on recorded 0 and sampled 1 and on nothing else, runs exactly that button's
increment, and stores the sampled level in any case; every other line and field is unchanged. -/
def Obligations.EdgeFollowsDecodeTable : Prop :=
  ∀ (s : State) (i : Quantity) (inp : Sample), Ready s →
    (Instr.edge i inp).opcode = 0x5 ∧
    ∃ t, exec (.edge i inp) s = .next t ∧
      line t.prev i = line inp.btnN i ∧
      line t.transient.fire i = (!line s.prev i && line inp.btnN i) ∧
      (line s.prev i = false ∧ line inp.btnN i = true →
        ∃ u, exec (incrementOf i) s = .next u ∧ t.time = u.time) ∧
      (¬(line s.prev i = false ∧ line inp.btnN i = true) → t.time = s.time) ∧
      (∀ j, j ≠ i → line t.prev j = line s.prev j ∧ line t.transient.fire j = line s.transient.fire j) ∧
      t = { s with time := t.time, prev := t.prev, transient := { s.transient with fire := t.transient.fire } }

/-- Rule R152: DB_PASS is EDGE for buttons 0, 1, 2 in that order; every recorded level becomes the sampled
one. -/
def Obligations.DbPassRunsThreeEdges : Prop :=
  ∀ (s : State) (inp : Sample), Ready s →
    (Instr.dbPass inp).opcode = 0x4 ∧
    ∃ a b t, exec (.edge .seconds inp) s = .next a ∧ exec (.edge .minutes inp) a = .next b ∧
      exec (.edge .hours inp) b = .next t ∧ exec (.dbPass inp) s = .next t ∧ t.prev = inp.btnN

/-- A debounce pass adds 1, 60 and 3600 seconds for the buttons whose recorded level is 0 and whose sampled
level is 1, judged on the levels before the pass; nothing but the time, prev and the fire bits changes (from
the rules of 42_input_debouncer.md and the arithmetic law). -/
def Obligations.DbPassAddsEachReleaseOnce : Prop :=
  ∀ (s : State) (inp : Sample), Ready s →
    ∃ t, exec (.dbPass inp) s = .next t ∧
      (∀ i, line t.transient.fire i = (!line s.prev i && line inp.btnN i)) ∧
      t.time.elapsed = (s.time.elapsed + (if line t.transient.fire .seconds then 1 else 0) +
        (if line t.transient.fire .minutes then 60 else 0) +
        (if line t.transient.fire .hours then 3600 else 0)) % 43200 ∧
      t = { s with time := t.time, prev := inp.btnN, transient := { s.transient with fire := t.transient.fire } }

/-- Rule R154: a pass that is not gated reads no button line, writes no prev, and fires nothing: its time is the
seconds poll's. -/
def Obligations.UngatedPassIgnoresButtons : Prop :=
  ∀ (s : State) (inp : Sample) (lines : Lines3), Ready s → gateHit s.params inp = false →
    ∃ t u, exec (.pass inp) s = .next t ∧ exec (.pass { inp with btnN := lines }) s = .next t ∧
      t.prev = s.prev ∧ exec (.secPoll inp) s = .next u ∧ t.time = u.time

/-- The gate window under EQ (70_reset_and_hazards.md, an inference the spec marks as its own, with the counter
contract of 60_exceptions.md as premise): after a gated sample, a pass `ticks` counter ticks later is gated
again exactly when the counter has come back to the same count; with no tick in between it is. -/
def Obligations.EqGateHoldsForOneCounterTick : Prop :=
  ∀ (p : Params) (inp inp' : Sample) (ticks : Nat), p.gateCmp = .eq → gateHit p inp = true →
    inp'.dbCount = debounceAfter p inp.dbCount ticks →
    (gateHit p inp' = true ↔ ticks % 2 ^ p.dbW = 0)

/-- 42_input_debouncer.md, property (b) (an inference the spec marks as its own): a button sampled 0 in k ≥ 1
consecutive gated passes and then 1 fires exactly once, at the pass that samples 1. -/
def Obligations.HeldPressFiresOnceOnRelease : Prop :=
  ∀ (s : State) (i : Quantity) (held : List Sample) (release : Sample), Ready s → held ≠ [] →
    (∀ j, j ≠ i → line s.prev j = true) →
    (∀ inp ∈ held, gateHit s.params inp = true ∧ tickHit s.params inp = false ∧ line inp.btnN i = false ∧
      ∀ j, j ≠ i → line inp.btnN j = true) →
    gateHit s.params release = true → tickHit s.params release = false → release.btnN = 0b111#3 →
    ∃ t u es, runPasses s held = some (t, es) ∧ t.time = s.time ∧
      exec (.pass release) t = .next u ∧ u.time.elapsed = (s.time.elapsed + incrementSize i) % 43200

/-- 42_input_debouncer.md, property (e) (an inference the spec marks as its own): gated samples 0, 1, 0, 1 of
one button, the others released, fire it twice. -/
def Obligations.BounceFiresTwice : Prop :=
  ∀ (s : State) (i : Quantity) (inps : List Sample), Ready s → s.prev = 0b111#3 →
    (∀ inp ∈ inps, gateHit s.params inp = true ∧ tickHit s.params inp = false) →
    inps.map (fun inp => inp.btnN) =
      [setLine 0b111#3 i false, 0b111#3, setLine 0b111#3 i false, 0b111#3] →
    ∃ t es, runPasses s inps = some (t, es) ∧
      t.time.elapsed = (s.time.elapsed + 2 * incrementSize i) % 43200

/-- 42_input_debouncer.md, property (f) (an inference the spec marks as its own): a button's fire bit and stored
level depend only on that button's own line and record. -/
def Obligations.ButtonsShareNoState : Prop :=
  ∀ (s s' : State) (inp inp' : Sample) (i : Quantity), Ready s → Ready s' →
    line s.prev i = line s'.prev i → line inp.btnN i = line inp'.btnN i →
    ∃ t t', exec (.dbPass inp) s = .next t ∧ exec (.dbPass inp') s' = .next t' ∧
      line t.prev i = line t'.prev i ∧ line t.transient.fire i = line t'.transient.fire i

/-- A recorded level changes only to the level an EDGE samples: by EDGE of that button, a debounce pass, or a gated
pass; RESET sets all three to 1 (10_state.md section 3; that EDGE and DB_PASS run by themselves is the model's
choice, log entry 5). -/
def Obligations.RecordedLevelsAreWrittenByEdgeOnly : Prop :=
  (∀ (i : Instr) (s t : State) (j : Quantity), i ≠ .reset → exec i s = .next t →
    line t.prev j ≠ line s.prev j →
    ∃ inp, line t.prev j = line inp.btnN j ∧
      (i = .edge j inp ∨ i = .dbPass inp ∨ (i = .pass inp ∧ gateHit s.params inp = true))) ∧
  (∀ s t : State, exec .reset s = .next t → t.prev = 0b111#3)

/-! ### Display Driver -/

/-- Rule R26: every pass moves the cursor once, by its display step; no operation but PASS, DISP_STEP and RESET
changes it, and RESET sets HOURS. -/
def Obligations.CursorIsWrittenByDisplayStepOnly : Prop :=
  (∀ (i : Instr) (s t : State), i ≠ .reset → exec i s = .next t → t.cursor ≠ s.cursor →
    i = .dispStep ∨ ∃ inp, i = .pass inp) ∧
  (∀ (s : State) (inp : Sample), Ready s →
    ∃ t u, exec (.pass inp) s = .next t ∧ exec .dispStep s = .next u ∧ t.cursor = u.cursor ∧ t.cursor ≠ s.cursor) ∧
  (∀ s t : State, exec .reset s = .next t → t.cursor = Quantity.code .hours)

/-- Rule R120: the display step moves the cursor SECONDS, MINUTES, HOURS, SECONDS; code 0b11 is refused. -/
def Obligations.CursorCycles : Prop :=
  (∀ s : State, Ready s → ∃ t, exec .dispStep s = .next t ∧
    (s.cursor = 0b00#2 → t.cursor = 0b01#2) ∧ (s.cursor = 0b01#2 → t.cursor = 0b10#2) ∧
    (s.cursor = 0b10#2 → t.cursor = 0b00#2)) ∧
  (∀ s : State, legalParams s.params = true → s.cursor = 0b11#2 → exec .dispStep s = .refused .illFormedState)

/-- Rules R72 and R122: ENCODE gives the pattern with the ones bit, and the tens bit when the tens digit is not
0, and no other; nothing but the transient pattern changes. -/
def Obligations.EncodeSetsDigitBits : Prop :=
  ∀ (s : State) (v : BitVec 6), Ready s → v.toNat ≤ 59 →
    (Instr.encode v).opcode = 0xA ∧
    ∃ p : Pattern, exec (.encode v) s = .next { s with transient := { s.transient with pattern := some p } } ∧
      ∀ k, k < 16 → p.getLsbD k =
        (decide (k = v.toNat % 10) || (decide (v.toNat / 10 ≠ 0) && decide (k = 9 + v.toNat / 10)))

/-- The encoder's properties (41_display_driver.md, an inference the spec marks as its own): one bit in 9..0, at
most one in 14..10, bit 15 clear, 1 bit below 10 and 2 from 10 on, and the value is recovered. -/
def Obligations.EncoderIsInjective : Prop :=
  (∀ v, v ≤ 59 →
    (∃ k, k < 10 ∧ (encodePattern v).getLsbD k = true ∧
      (∀ j, j < 10 → (encodePattern v).getLsbD j = true → j = k) ∧ k = v % 10) ∧
    (∀ j, 10 ≤ j → j ≤ 14 → (encodePattern v).getLsbD j = true → v = v % 10 + 10 * (j - 9)) ∧
    ((∀ j, 10 ≤ j → j ≤ 14 → (encodePattern v).getLsbD j = false) ↔ v ≤ 9) ∧
    (encodePattern v).getLsbD 15 = false) ∧
  (∀ v w, v ≤ 59 → w ≤ 59 → encodePattern v = encodePattern w → v = w)

/-- Rule R124: SHIFT_BIT emits DATA=b, CLK=0, CLK=1 whatever the lines show, and leaves sr_data at b and sr_clk
at 1; no other register changes. -/
def Obligations.ShiftBitEmitsDataThenPulse : Prop :=
  ∀ (s : State) (b : Bool), Ready s →
    (Instr.shiftBit b).opcode = 0xB ∧
    ∃ t, exec (.shiftBit b) s = .next t ∧
      t = { s with
        out := { s.out with srData := b, srClk := true }
        events := s.events ++ [.data b, .clk false, .clk true]
        devices := t.devices }

/-- Rule R125: SERIALIZE sends bits 15 down to 0, 48 events; no register but sr_data and sr_clk changes. -/
def Obligations.SerializeSendsMsbFirst : Prop :=
  ∀ (s : State) (p : Pattern), Ready s → p.getLsbD 15 = false →
    (Instr.serialize p).opcode = 0xC ∧
    ∃ t es, exec (.serialize p) s = .next t ∧ es.length = 48 ∧
      (∀ k, k < 16 → es[3 * k]? = some (.data (p.getLsbD (15 - k))) ∧ es[3 * k + 1]? = some (.clk false) ∧
        es[3 * k + 2]? = some (.clk true)) ∧
      t = { s with
        out := { s.out with srData := p.getLsbD 0, srClk := true }
        events := s.events ++ es
        devices := t.devices }

/-- Rule R126: STROBE emits STB=1, STB=0; no register but sr_strobe changes. -/
def Obligations.StrobePulsesHighThenLow : Prop :=
  ∀ s : State, Ready s →
    Instr.strobe.opcode = 0xD ∧
    ∃ t, exec .strobe s = .next t ∧
      t = { s with
        out := { s.out with srStrobe := false }
        events := s.events ++ [.stb true, .stb false]
        devices := t.devices }

/-- Rule R127: BANK_SWITCH disables the previous bank, then enables the next one; where only the previous was
enabled, none is enabled between the two events and only the new one after. -/
def Obligations.BankSwitchDisablesFirst : Prop :=
  ∀ (s : State) (old : Quantity), Ready s →
    (Instr.bankSwitch old (nextQuantity old)).opcode = 0xE ∧
    ∃ t, exec (.bankSwitch old (nextQuantity old)) s = .next t ∧
      line t.out.bankN old = true ∧ line t.out.bankN (nextQuantity old) = false ∧
      (∀ r, r ≠ old → r ≠ nextQuantity old → line t.out.bankN r = line s.out.bankN r) ∧
      (OnlyBank s.out old → NoBank (outputsAfter s.out [.bank old true]) ∧ OnlyBank t.out (nextQuantity old)) ∧
      t = { s with
        out := { s.out with bankN := t.out.bankN }
        events := s.events ++ [.bank old true, .bank (nextQuantity old) false] }

/-- BANK_SWITCH on any two cursor states writes the two lines in order; that it runs where the new state is not
the successor of the old one is the model's choice (log entry 13). -/
def Obligations.BankSwitchRunsOnAnyPair : Prop :=
  ∀ (s : State) (old new : Quantity), Ready s →
    ∃ t, exec (.bankSwitch old new) s = .next t ∧
      (∀ r, line t.out.bankN r = if r = new then false else if r = old then true else line s.out.bankN r) ∧
      t = { s with
        out := { s.out with bankN := t.out.bankN }
        events := s.events ++ [.bank old true, .bank new false] }

/-- Rule R128: DISP_STEP moves the cursor to its successor, then runs ENCODE of the field that names, SERIALIZE,
STROBE and BANK_SWITCH in that order, 52 events; the time and prev are unchanged. -/
def Obligations.DispStepRunsItsFourParts : Prop :=
  ∀ (s : State) (old : Quantity), Ready s → s.cursor = old.code →
    Instr.dispStep.opcode = 0x9 ∧
    ∃ a b c t p, exec (.encode (BitVec.ofNat 6 (field s.time (nextQuantity old))))
        { s with cursor := (nextQuantity old).code } = .next a ∧
      a.transient.pattern = some p ∧ exec (.serialize p) a = .next b ∧ exec .strobe b = .next c ∧
      exec (.bankSwitch old (nextQuantity old)) c = .next t ∧ exec .dispStep s = .next t ∧
      t.cursor = (nextQuantity old).code ∧ t.events.length = s.events.length + 52 ∧
      t.time = s.time ∧ t.prev = s.prev

/-- The ordering guarantees of a display step (41_display_driver.md, an inference the spec marks as its own):
16 rising clock edges, all before STB=1; STB=0 before a bank is disabled; that before a bank is enabled. -/
def Obligations.DisplayEventsAreOrdered : Prop :=
  ∀ s : State, Ready s → s.events = [] →
    ∃ t, exec .dispStep s = .next t ∧ t.events.count (.clk true) = 16 ∧
      (∀ i j : Nat, t.events[i]? = some (.clk true) → t.events[j]? = some (.stb true) → i < j) ∧
      (∀ (i j : Nat) (q : Quantity), t.events[i]? = some (.stb false) → t.events[j]? = some (.bank q true) → i < j) ∧
      (∀ (i j : Nat) (q r : Quantity), t.events[i]? = some (.bank q true) → t.events[j]? = some (.bank r false) → i < j)

/-! ### Control Loop -/

/-- Rule R170: SEC_POLL compares the top 8 of the SEC_W bits of sec_count with SEC_THRESHOLD; on equality it
emits SEC_CLR and runs INC_SEC, else neither; nothing else changes but the transient tick_hit. SEC_THRESHOLD = 0
is refused. -/
def Obligations.SecPollTicksOnHighByte : Prop :=
  (∀ (s : State) (inp : Sample), s.params.secThreshold = 0#8 →
    exec (.secPoll inp) s = .refused .illegalParameter) ∧
  ∀ (s : State) (inp : Sample), Ready s →
    (Instr.secPoll inp).opcode = 0x2 ∧
    (inp.secCount % 2 ^ s.params.secW / 2 ^ (s.params.secW - 8) = s.params.secThreshold.toNat →
      ∃ u, exec .incSec s = .next u ∧ exec (.secPoll inp) s = .next { s with
        time := u.time
        events := s.events ++ [.secClr]
        transient := { s.transient with tickHit := some true } }) ∧
    (inp.secCount % 2 ^ s.params.secW / 2 ^ (s.params.secW - 8) ≠ s.params.secThreshold.toNat →
      exec (.secPoll inp) s = .next { s with transient := { s.transient with tickHit := some false } })

/-- Rules R78 and R171: PASS begins an empty event list and runs SEC_POLL, GATE_CHECK, DB_PASS when gated, and
DISP_STEP, in that order; its transient values are discarded. A tick pass has 53 events, any other 52. -/
def Obligations.PassRunsPhasesInOrder : Prop :=
  ∀ (s : State) (inp : Sample), Ready s →
    (Instr.pass inp).opcode = 0x1 ∧
    ∃ a b c d, exec (.secPoll inp) { s with events := [], transient := Transient.clear } = .next a ∧
      exec (.gateCheck inp) a = .next b ∧
      a.transient.tickHit = some (tickHit s.params inp) ∧ b.transient.gateHit = some (gateHit s.params inp) ∧
      (gateHit s.params inp = true → exec (.dbPass inp) b = .next c) ∧
      (gateHit s.params inp = false → c = b) ∧
      exec .dispStep c = .next d ∧
      exec (.pass inp) s = .next { d with transient := Transient.clear } ∧
      (tickHit s.params inp = true → d.events.length = 53 ∧ d.events.head? = some .secClr) ∧
      (tickHit s.params inp = false → d.events.length = 52 ∧ Event.secClr ∉ d.events)

/-- The time after a pass, whatever coincides in it (43_control_loop.md and 60_exceptions.md, by the arithmetic
law): one second for a tick, and in a gated pass each released button's increment. -/
def Obligations.PassAddsTickAndReleases : Prop :=
  ∀ (s : State) (inp : Sample), Ready s →
    ∃ t, exec (.pass inp) s = .next t ∧
      t.time.elapsed = (s.time.elapsed + (if tickHit s.params inp then 1 else 0) +
        (if gateHit s.params inp && !line s.prev .seconds && line inp.btnN .seconds then 1 else 0) +
        (if gateHit s.params inp && !line s.prev .minutes && line inp.btnN .minutes then 60 else 0) +
        (if gateHit s.params inp && !line s.prev .hours && line inp.btnN .hours then 3600 else 0)) % 43200 ∧
      t.prev = (if gateHit s.params inp then inp.btnN else s.prev) ∧
      t.params = s.params ∧ t.stimulus = s.stimulus ∧ t.draws = s.draws

/-- A pass's display step reads the time the same pass leaves (43_control_loop.md, visibility of increments): the
latches, in the model's environment (log entry 11), hold the pattern of the quantity the new cursor names. -/
def Obligations.PassLatchesUpdatedTime : Prop :=
  ∀ (s : State) (inp : Sample), Ready s →
    ∃ t q, exec (.pass inp) s = .next t ∧ t.cursor = Quantity.code q ∧ legalTime t.time = true ∧
      t.devices.latch = encodePattern (field t.time q)

/-- Rule R194: from a well-formed state with legal parameters PASS answers a next state for every sample record;
from any other it is refused, and a refusal is kept for the whole run. -/
def Obligations.PassHasTwoOutcomes : Prop :=
  (∀ (s : State) (inp : Sample), Ready s → ∃ t, exec (.pass inp) s = .next t) ∧
  (∀ (s : State) (inp : Sample), legalParams s.params = false →
    exec (.pass inp) s = .refused .illegalParameter) ∧
  (∀ (s : State) (inp : Sample), legalParams s.params = true → wellFormed s = false →
    exec (.pass inp) s = .refused .illFormedState) ∧
  (∀ (s : State) (r : Refusal) (k : Nat), step s = .refused r → Sys2Proof.core.run (k + 1) s = .refused r)

/-- What the model refuses of 30_encoding.md section 4 and 60_exceptions.md section 1: the reserved code from every
state; every operation but RESET (log entry 8) from an ill-formed state or under illegal parameters, whatever it
reads (log entry 9); ENCODE's 60..63 and SERIALIZE's bit 15, before the state is looked at (log entries 9, 14); and
words with a bit above the operand, button index 3 or cursor code 0b11 (log entries 2, 14). -/
def Obligations.ReservedAndIllFormedAreRefused : Prop :=
  (∀ s : State, exec .reserved s = .refused .reservedCode) ∧
  (∀ (i : Instr) (s : State), i ≠ .reset →
    59 < s.time.second.toNat ∨ 59 < s.time.minute.toNat ∨ s.time.hour.toNat = 0 ∨ 12 < s.time.hour.toNat ∨
      s.cursor = 0b11#2 →
    ∃ r, exec i s = .refused r) ∧
  (∀ (i : Instr) (s : State), i ≠ .reset →
    s.params.secThreshold = 0#8 ∨ s.params.secW < 8 ∨ s.params.dbW = 0 → ∃ r, exec i s = .refused r) ∧
  (∀ (v : BitVec 6) (s : State), 59 < v.toNat → exec (.encode v) s = .refused .operandOutOfRange) ∧
  (∀ (p : Pattern) (s : State), p.getLsbD 15 = true → exec (.serialize p) s = .refused .operandOutOfRange) ∧
  (∀ (p : Params) (w : Nat), 2 ^ operandBits p (w % 16) ≤ w / 16 → decode p w = .error .excessBits) ∧
  (∀ (p : Params) (n : Nat), n < 2 ^ sampleWidth p →
    decode p ((n * 4 + 3) * 16 + 0x5) = .error .unusedButtonIndex) ∧
  (∀ (p : Params) (old new : Nat), old < 4 → new < 4 → old = 3 ∨ new = 3 →
    decode p ((old * 4 + new) * 16 + 0xE) = .error .unusedCursorCode)

/-- The poll window (43_control_loop.md, an inference the spec marks as its own): a pass ticks exactly when its
count lies in the window, and a rising count sampled at less than a window's spacing is caught. -/
def Obligations.PollWindowCatchesEveryCrossing : Prop :=
  (∀ (p : Params) (inp : Sample), legalParams p = true →
    (tickHit p inp = true ↔ windowStart p ≤ inp.secCount % 2 ^ p.secW ∧
      inp.secCount % 2 ^ p.secW < windowStart p + windowLength p)) ∧
  (∀ (p : Params) (c : Nat → Nat) (n : Nat), legalParams p = true →
    (∀ m, c m ≤ c (m + 1) ∧ c (m + 1) < c m + windowLength p) → c 0 < windowStart p → windowStart p ≤ c n →
    ∃ m, m ≤ n ∧ ∀ db lines, tickHit p { secCount := c m, dbCount := db, btnN := lines } = true)

/-- No double fire (43_control_loop.md, an inference the spec marks as its own, with the counter contract of
60_exceptions.md as premise): after a tick pass whose SEC_CLR is honoured, none of the passes that follow ticks, as
long as each samples the counter fewer than SEC_THRESHOLD * 2^(SEC_W-8) counter ticks after the clear. -/
def Obligations.NoDoubleFireAfterClear : Prop :=
  ∀ (s : State) (inp : Sample) (inps : List Sample), Ready s → tickHit s.params inp = true →
    (∀ x ∈ inps, ∃ ticks, ticks < windowStart s.params ∧
      x.secCount = counterAfter s.params inp.secCount ticks true) →
    ∃ t u es, exec (.pass inp) s = .next t ∧ Event.secClr ∈ t.events ∧
      runPasses t inps = some (u, es) ∧ Event.secClr ∉ es

/-! ### Reset -/

/-- From any state (log entry 8) RESET gives the same block registers (70_reset_and_hazards.md section 1 and the
reset values of 10_state.md section 8), 12:00:00 with all banks disabled, those of a restart after power loss
(State.resetOf), and a second RESET changes nothing; of the model's own fields: no event (log entry 7), no transient
(log entry 6), the devices untouched (log entry 11), parameters and supply of inputs as before (log entries 1, 3). -/
def Obligations.ResetGivesTheSameState : Prop :=
  (∀ s : State, ∃ t, exec .reset s = .next t ∧ exec .reset t = .next t ∧
    t.time.hour = 12#4 ∧ t.time.minute = 0#6 ∧ t.time.second = 0#6 ∧ t.prev = 0b111#3 ∧ t.cursor = 0b10#2 ∧
    t.out.srData = false ∧ t.out.srClk = true ∧ t.out.srStrobe = false ∧ t.out.bankN = 0b111#3 ∧
    t.events = [] ∧ t.transient = Transient.clear ∧ t.devices = s.devices ∧ t.params = s.params ∧
    t.stimulus = s.stimulus ∧ t.draws = s.draws) ∧
  (∀ s s' t t' : State, exec .reset s = .next t → exec .reset s' = .next t' → SameBlock t t') ∧
  (∀ (s t : State) (p : Params), exec .reset s = .next t → SameBlock t (State.resetOf p))

/-- A pass abandoned by rst (70_reset_and_hazards.md section 1; the cut after any number of events is log entry 10):
the events already emitted have happened, and the block holds its reset values; the event list and the devices are
the model's (log entries 7, 11). -/
def Obligations.AbandonedPassLeavesResetState : Prop :=
  ∀ (s : State) (d : Draw) (rest : List Stimulus) (k : Nat), Ready s → s.stimulus = .env d :: rest →
    d.rst = some (k + 1) →
    ∃ t u v, exec (.pass d.inp) { s with stimulus := rest } = .next t ∧ exec .reset s = .next u ∧
      step s = .next v ∧ SameBlock u v ∧ v.events = t.events.take (k + 1) ∧ v.transient = Transient.clear ∧
      v.devices = devicesAfter s.out s.devices (t.events.take (k + 1)) ∧
      v.params = s.params ∧ v.stimulus = rest ∧ v.draws = s.draws

/-- The state after reset: the reset values the spec gives (10_state.md section 8), for a part with any
parameters; State.reset is that of the default part, whose parameters are legal (log entry 1). -/
def Obligations.ResetStateHoldsResetValues : Prop :=
  (∀ p : Params,
    (State.resetOf p).time.hour = 12#4 ∧ (State.resetOf p).time.minute = 0#6 ∧ (State.resetOf p).time.second = 0#6 ∧
    (State.resetOf p).prev = 0b111#3 ∧ (State.resetOf p).cursor = 0b10#2 ∧ (State.resetOf p).out.srData = false ∧
    (State.resetOf p).out.srClk = true ∧ (State.resetOf p).out.srStrobe = false ∧
    (State.resetOf p).out.bankN = 0b111#3 ∧ (State.resetOf p).params = p) ∧
  State.reset = State.resetOf Params.part ∧ Ready State.reset

/-- The boundary invariant holds right after reset, whatever the parameters (log entry 3 for the empty
queue). -/
def Obligations.BoundaryHoldsAtReset : Prop :=
  (∀ p : Params, Boundary (State.resetOf p)) ∧ Boundary State.reset

/-! ### Invariants and whole-machine rules -/

/-- Every step keeps the state well formed and never writes the parameters (from rules of 10_state.md: the
well-formedness of a pass is an inference the spec marks as its own). -/
def Obligations.StepKeepsWellFormed : Prop :=
  ∀ s t : State, wellFormed s = true → step s = .next t → wellFormed t = true ∧ t.params = s.params

/-- Every step keeps the boundary invariant: well formed, the bank lines of 10_state.md, clock high, strobe low,
nothing transient, and only passes and resets to come. -/
def Obligations.StepKeepsBoundary : Prop :=
  ∀ s t : State, Boundary s → step s = .next t → Boundary t

/-- Passes and resets follow one another without end (43_control_loop.md): from a boundary state of a legal part
no number of steps is refused, whatever the environment supplies. -/
def Obligations.RunsAreNeverRefused : Prop :=
  ∀ (s : State) (k : Nat), legalParams s.params = true → Boundary s → runsSafely k s

/-- Whatever operation runs, apart from RESET, the output registers hold the levels the events it appends have
driven, and no others change (10_state.md section 5); the devices see exactly those events (41_display_driver.md
section 6; the devices are the model's, log entry 11). -/
def Obligations.RegistersHoldLastDrivenLevel : Prop :=
  ∀ (i : Instr) (s t : State), i ≠ .reset → exec i s = .next t →
    ∃ es, ((∃ inp, i = .pass inp) → t.events = es) ∧ ((∀ inp, i ≠ .pass inp) → t.events = s.events ++ es) ∧
      t.out = outputsAfter s.out es ∧ t.devices = devicesAfter s.out s.devices es

/-- The bank invariant (10_state.md, an inference the spec marks as its own): after a pass exactly the bank the
cursor names is enabled, and at no point of its event list are two enabled. -/
def Obligations.NeverTwoBanksInAPass : Prop :=
  ∀ (s : State) (inp : Sample), Ready s → BanksAtBoundary s →
    ∃ t q, exec (.pass inp) s = .next t ∧ t.cursor = Quantity.code q ∧ OnlyBank t.out q ∧
      ∀ k, AtMostOneBank (outputsAfter s.out (t.events.take k))

/-- No cross-talk on the new bank (41_display_driver.md sections 5 and 6; the devices are the model's, log entry
11): at every point of a pass's event list, the bank the pass turns to, if lit, shows the pattern of the value
it is for. -/
def Obligations.NewBankShowsItsOwnPattern : Prop :=
  ∀ (s : State) (inp : Sample), Ready s → BanksAtBoundary s →
    ∃ t q, exec (.pass inp) s = .next t ∧ t.cursor = Quantity.code q ∧
      lit t.out t.devices q = some (encodePattern (field t.time q)) ∧
      ∀ k pat, lit (outputsAfter s.out (t.events.take k)) (devicesAfter s.out s.devices (t.events.take k)) q = some pat →
        pat = encodePattern (field t.time q)

/-- What the order of events does allow (41_display_driver.md sections 3 to 6; the devices are the model's, log
entry 11): between STB=0 and BANK=1 of a pass the previous bank is still enabled and shows the new pattern. -/
def Obligations.PreviousBankShowsNewPatternBriefly : Prop :=
  ∀ (s : State) (inp : Sample) (old : Quantity), Ready s → s.cursor = old.code → OnlyBank s.out old →
    ∃ t k, exec (.pass inp) s = .next t ∧ k + 2 = t.events.length ∧
      lit (outputsAfter s.out (t.events.take k)) (devicesAfter s.out s.devices (t.events.take k)) old =
        some (encodePattern (field t.time (nextQuantity old)))

/-- Any number of passes from a ready state all run, with 52 or 53 events each (43_control_loop.md). -/
def Obligations.PassesFollowOneAnother : Prop :=
  ∀ (s : State) (inps : List Sample), Ready s →
    ∃ t es, runPasses s inps = some (t, es) ∧ Ready t ∧ t.params = s.params ∧
      52 * inps.length ≤ es.length ∧ es.length ≤ 53 * inps.length

/-- Rotation (41_display_driver.md, an inference the spec marks as its own): n passes from a ready state move the
cursor n steps on in its cycle, and the last renders the quantity it names (the latches are the model's, log entry
11); so pass n after reset renders SECONDS, MINUTES, HOURS as n mod 3 is 1, 2, 0. -/
def Obligations.PassesRotateFromReset : Prop :=
  (∀ (s : State) (old : Quantity) (inps : List Sample), Ready s → s.cursor = old.code → inps ≠ [] →
    ∃ t es q, runPasses s inps = some (t, es) ∧ t.cursor = Quantity.code q ∧
      q.index = (old.index + inps.length) % 3 ∧ t.devices.latch = encodePattern (field t.time q)) ∧
  (∀ (p : Params) (inps : List Sample), legalParams p = true → inps ≠ [] →
    ∃ t es q, runPasses (State.resetOf p) inps = some (t, es) ∧ t.cursor = Quantity.code q ∧
      (q.index + 1) % 3 = inps.length % 3 ∧ t.devices.latch = encodePattern (field t.time q))

/-- The scenario of 40_time_model.md (an inference the spec marks as its own): n ungated tick passes advance the
time by n seconds modulo 12 hours; from reset 60 give 12:01:00, 3600 give 1:00:00, 43200 give 12:00:00. -/
def Obligations.TickPassesCountSeconds : Prop :=
  (∀ (s : State) (inps : List Sample), Ready s →
    (∀ inp ∈ inps, tickHit s.params inp = true ∧ gateHit s.params inp = false) →
    ∃ t es, runPasses s inps = some (t, es) ∧
      t.time.elapsed = (s.time.elapsed + inps.length) % 43200 ∧ es.count .secClr = inps.length) ∧
  (∀ (p : Params) (inps : List Sample), legalParams p = true →
    (∀ inp ∈ inps, tickHit p inp = true ∧ gateHit p inp = false) →
    ∃ t es, runPasses (State.resetOf p) inps = some (t, es) ∧
      (inps.length = 60 → t.time = { second := 0#6, minute := 1#6, hour := 12#4 }) ∧
      (inps.length = 3600 → t.time = { second := 0#6, minute := 0#6, hour := 1#4 }) ∧
      (inps.length = 43200 → t.time = { second := 0#6, minute := 0#6, hour := 12#4 }))
end

