-- ==== Sys2Proof/Laws/State.lean ====
section
/-! SUPPORT. One lemma per field per update of the state, each true by rfl, so that no later proof unfolds a
record update. -/

namespace Sys2Proof.Machine

/-! ### setTime -/

@[simp] theorem setTime_time (s : State) (t : Time) : (setTime s t).time = t := rfl
@[simp] theorem setTime_prev (s : State) (t : Time) : (setTime s t).prev = s.prev := rfl
@[simp] theorem setTime_cursor (s : State) (t : Time) : (setTime s t).cursor = s.cursor := rfl
@[simp] theorem setTime_out (s : State) (t : Time) : (setTime s t).out = s.out := rfl
@[simp] theorem setTime_events (s : State) (t : Time) : (setTime s t).events = s.events := rfl
@[simp] theorem setTime_transient (s : State) (t : Time) : (setTime s t).transient = s.transient := rfl
@[simp] theorem setTime_devices (s : State) (t : Time) : (setTime s t).devices = s.devices := rfl
@[simp] theorem setTime_params (s : State) (t : Time) : (setTime s t).params = s.params := rfl
@[simp] theorem setTime_stimulus (s : State) (t : Time) : (setTime s t).stimulus = s.stimulus := rfl
@[simp] theorem setTime_draws (s : State) (t : Time) : (setTime s t).draws = s.draws := rfl

/-! ### setPrev -/

@[simp] theorem setPrev_time (s : State) (v : Lines3) : (setPrev s v).time = s.time := rfl
@[simp] theorem setPrev_prev (s : State) (v : Lines3) : (setPrev s v).prev = v := rfl
@[simp] theorem setPrev_cursor (s : State) (v : Lines3) : (setPrev s v).cursor = s.cursor := rfl
@[simp] theorem setPrev_out (s : State) (v : Lines3) : (setPrev s v).out = s.out := rfl
@[simp] theorem setPrev_events (s : State) (v : Lines3) : (setPrev s v).events = s.events := rfl
@[simp] theorem setPrev_transient (s : State) (v : Lines3) : (setPrev s v).transient = s.transient := rfl
@[simp] theorem setPrev_devices (s : State) (v : Lines3) : (setPrev s v).devices = s.devices := rfl
@[simp] theorem setPrev_params (s : State) (v : Lines3) : (setPrev s v).params = s.params := rfl
@[simp] theorem setPrev_stimulus (s : State) (v : Lines3) : (setPrev s v).stimulus = s.stimulus := rfl
@[simp] theorem setPrev_draws (s : State) (v : Lines3) : (setPrev s v).draws = s.draws := rfl

/-! ### setCursor -/

@[simp] theorem setCursor_time (s : State) (q : Quantity) : (setCursor s q).time = s.time := rfl
@[simp] theorem setCursor_prev (s : State) (q : Quantity) : (setCursor s q).prev = s.prev := rfl
@[simp] theorem setCursor_cursor (s : State) (q : Quantity) : (setCursor s q).cursor = q.code := rfl
@[simp] theorem setCursor_out (s : State) (q : Quantity) : (setCursor s q).out = s.out := rfl
@[simp] theorem setCursor_events (s : State) (q : Quantity) : (setCursor s q).events = s.events := rfl
@[simp] theorem setCursor_transient (s : State) (q : Quantity) : (setCursor s q).transient = s.transient := rfl
@[simp] theorem setCursor_devices (s : State) (q : Quantity) : (setCursor s q).devices = s.devices := rfl
@[simp] theorem setCursor_params (s : State) (q : Quantity) : (setCursor s q).params = s.params := rfl
@[simp] theorem setCursor_stimulus (s : State) (q : Quantity) : (setCursor s q).stimulus = s.stimulus := rfl
@[simp] theorem setCursor_draws (s : State) (q : Quantity) : (setCursor s q).draws = s.draws := rfl

/-! ### noteTick -/

@[simp] theorem noteTick_time (s : State) (b : Bool) : (noteTick s b).time = s.time := rfl
@[simp] theorem noteTick_prev (s : State) (b : Bool) : (noteTick s b).prev = s.prev := rfl
@[simp] theorem noteTick_cursor (s : State) (b : Bool) : (noteTick s b).cursor = s.cursor := rfl
@[simp] theorem noteTick_out (s : State) (b : Bool) : (noteTick s b).out = s.out := rfl
@[simp] theorem noteTick_events (s : State) (b : Bool) : (noteTick s b).events = s.events := rfl
@[simp] theorem noteTick_transient (s : State) (b : Bool) : (noteTick s b).transient = { s.transient with tickHit := some b } := rfl
@[simp] theorem noteTick_devices (s : State) (b : Bool) : (noteTick s b).devices = s.devices := rfl
@[simp] theorem noteTick_params (s : State) (b : Bool) : (noteTick s b).params = s.params := rfl
@[simp] theorem noteTick_stimulus (s : State) (b : Bool) : (noteTick s b).stimulus = s.stimulus := rfl
@[simp] theorem noteTick_draws (s : State) (b : Bool) : (noteTick s b).draws = s.draws := rfl

/-! ### noteGate -/

@[simp] theorem noteGate_time (s : State) (b : Bool) : (noteGate s b).time = s.time := rfl
@[simp] theorem noteGate_prev (s : State) (b : Bool) : (noteGate s b).prev = s.prev := rfl
@[simp] theorem noteGate_cursor (s : State) (b : Bool) : (noteGate s b).cursor = s.cursor := rfl
@[simp] theorem noteGate_out (s : State) (b : Bool) : (noteGate s b).out = s.out := rfl
@[simp] theorem noteGate_events (s : State) (b : Bool) : (noteGate s b).events = s.events := rfl
@[simp] theorem noteGate_transient (s : State) (b : Bool) : (noteGate s b).transient = { s.transient with gateHit := some b } := rfl
@[simp] theorem noteGate_devices (s : State) (b : Bool) : (noteGate s b).devices = s.devices := rfl
@[simp] theorem noteGate_params (s : State) (b : Bool) : (noteGate s b).params = s.params := rfl
@[simp] theorem noteGate_stimulus (s : State) (b : Bool) : (noteGate s b).stimulus = s.stimulus := rfl
@[simp] theorem noteGate_draws (s : State) (b : Bool) : (noteGate s b).draws = s.draws := rfl

/-! ### noteFire -/

@[simp] theorem noteFire_time (s : State) (i : Quantity) (b : Bool) : (noteFire s i b).time = s.time := rfl
@[simp] theorem noteFire_prev (s : State) (i : Quantity) (b : Bool) : (noteFire s i b).prev = s.prev := rfl
@[simp] theorem noteFire_cursor (s : State) (i : Quantity) (b : Bool) : (noteFire s i b).cursor = s.cursor := rfl
@[simp] theorem noteFire_out (s : State) (i : Quantity) (b : Bool) : (noteFire s i b).out = s.out := rfl
@[simp] theorem noteFire_events (s : State) (i : Quantity) (b : Bool) : (noteFire s i b).events = s.events := rfl
@[simp] theorem noteFire_transient (s : State) (i : Quantity) (b : Bool) : (noteFire s i b).transient = { s.transient with fire := setLine s.transient.fire i b } := rfl
@[simp] theorem noteFire_devices (s : State) (i : Quantity) (b : Bool) : (noteFire s i b).devices = s.devices := rfl
@[simp] theorem noteFire_params (s : State) (i : Quantity) (b : Bool) : (noteFire s i b).params = s.params := rfl
@[simp] theorem noteFire_stimulus (s : State) (i : Quantity) (b : Bool) : (noteFire s i b).stimulus = s.stimulus := rfl
@[simp] theorem noteFire_draws (s : State) (i : Quantity) (b : Bool) : (noteFire s i b).draws = s.draws := rfl

/-! ### notePattern -/

@[simp] theorem notePattern_time (s : State) (p : Pattern) : (notePattern s p).time = s.time := rfl
@[simp] theorem notePattern_prev (s : State) (p : Pattern) : (notePattern s p).prev = s.prev := rfl
@[simp] theorem notePattern_cursor (s : State) (p : Pattern) : (notePattern s p).cursor = s.cursor := rfl
@[simp] theorem notePattern_out (s : State) (p : Pattern) : (notePattern s p).out = s.out := rfl
@[simp] theorem notePattern_events (s : State) (p : Pattern) : (notePattern s p).events = s.events := rfl
@[simp] theorem notePattern_transient (s : State) (p : Pattern) : (notePattern s p).transient = { s.transient with pattern := some p } := rfl
@[simp] theorem notePattern_devices (s : State) (p : Pattern) : (notePattern s p).devices = s.devices := rfl
@[simp] theorem notePattern_params (s : State) (p : Pattern) : (notePattern s p).params = s.params := rfl
@[simp] theorem notePattern_stimulus (s : State) (p : Pattern) : (notePattern s p).stimulus = s.stimulus := rfl
@[simp] theorem notePattern_draws (s : State) (p : Pattern) : (notePattern s p).draws = s.draws := rfl

/-! ### beginPass -/

@[simp] theorem beginPass_time (s : State) : (beginPass s).time = s.time := rfl
@[simp] theorem beginPass_prev (s : State) : (beginPass s).prev = s.prev := rfl
@[simp] theorem beginPass_cursor (s : State) : (beginPass s).cursor = s.cursor := rfl
@[simp] theorem beginPass_out (s : State) : (beginPass s).out = s.out := rfl
@[simp] theorem beginPass_events (s : State) : (beginPass s).events = [] := rfl
@[simp] theorem beginPass_transient (s : State) : (beginPass s).transient = Transient.clear := rfl
@[simp] theorem beginPass_devices (s : State) : (beginPass s).devices = s.devices := rfl
@[simp] theorem beginPass_params (s : State) : (beginPass s).params = s.params := rfl
@[simp] theorem beginPass_stimulus (s : State) : (beginPass s).stimulus = s.stimulus := rfl
@[simp] theorem beginPass_draws (s : State) : (beginPass s).draws = s.draws := rfl

/-! ### endPass -/

@[simp] theorem endPass_time (s : State) : (endPass s).time = s.time := rfl
@[simp] theorem endPass_prev (s : State) : (endPass s).prev = s.prev := rfl
@[simp] theorem endPass_cursor (s : State) : (endPass s).cursor = s.cursor := rfl
@[simp] theorem endPass_out (s : State) : (endPass s).out = s.out := rfl
@[simp] theorem endPass_events (s : State) : (endPass s).events = s.events := rfl
@[simp] theorem endPass_transient (s : State) : (endPass s).transient = Transient.clear := rfl
@[simp] theorem endPass_devices (s : State) : (endPass s).devices = s.devices := rfl
@[simp] theorem endPass_params (s : State) : (endPass s).params = s.params := rfl
@[simp] theorem endPass_stimulus (s : State) : (endPass s).stimulus = s.stimulus := rfl
@[simp] theorem endPass_draws (s : State) : (endPass s).draws = s.draws := rfl

/-! ### emit -/

@[simp] theorem emit_time (s : State) (e : Event) : (emit s e).time = s.time := rfl
@[simp] theorem emit_prev (s : State) (e : Event) : (emit s e).prev = s.prev := rfl
@[simp] theorem emit_cursor (s : State) (e : Event) : (emit s e).cursor = s.cursor := rfl
@[simp] theorem emit_out (s : State) (e : Event) : (emit s e).out = driveOutputs s.out e := rfl
@[simp] theorem emit_events (s : State) (e : Event) : (emit s e).events = s.events ++ [e] := rfl
@[simp] theorem emit_transient (s : State) (e : Event) : (emit s e).transient = s.transient := rfl
@[simp] theorem emit_devices (s : State) (e : Event) : (emit s e).devices = seeEvent s.devices s.out e := rfl
@[simp] theorem emit_params (s : State) (e : Event) : (emit s e).params = s.params := rfl
@[simp] theorem emit_stimulus (s : State) (e : Event) : (emit s e).stimulus = s.stimulus := rfl
@[simp] theorem emit_draws (s : State) (e : Event) : (emit s e).draws = s.draws := rfl

/-! ### resetBlock -/

@[simp] theorem resetBlock_time (s : State) : (resetBlock s).time = Time.reset := rfl
@[simp] theorem resetBlock_prev (s : State) : (resetBlock s).prev = 0b111#3 := rfl
@[simp] theorem resetBlock_cursor (s : State) : (resetBlock s).cursor = Quantity.hours.code := rfl
@[simp] theorem resetBlock_out (s : State) : (resetBlock s).out = Outputs.reset := rfl
@[simp] theorem resetBlock_events (s : State) : (resetBlock s).events = s.events := rfl
@[simp] theorem resetBlock_transient (s : State) : (resetBlock s).transient = Transient.clear := rfl
@[simp] theorem resetBlock_devices (s : State) : (resetBlock s).devices = s.devices := rfl
@[simp] theorem resetBlock_params (s : State) : (resetBlock s).params = s.params := rfl
@[simp] theorem resetBlock_stimulus (s : State) : (resetBlock s).stimulus = s.stimulus := rfl
@[simp] theorem resetBlock_draws (s : State) : (resetBlock s).draws = s.draws := rfl

end Sys2Proof.Machine
end

