-- ==== Sys2Proof/Laws/Ops.lean ====
section
/-! SUPPORT. What each shared operation can do, said once: the guard, emission, and the operations' effects on
each field. -/

namespace Sys2Proof.Machine

/-! ### Quantities and lines -/

@[simp] theorem Quantity_ofCode_code (q : Quantity) : Quantity.ofCode q.code = some q := by cases q <;> rfl

theorem code_of_ofCode (c : Code2) (q : Quantity) (h : Quantity.ofCode c = some q) : c = q.code := by
  revert c q; decide

@[simp] theorem line_setLine_self (v : Lines3) (i : Quantity) (b : Bool) : line (setLine v i b) i = b := by
  cases i <;> revert v b <;> decide

theorem line_setLine_other (v : Lines3) (i j : Quantity) (b : Bool) (h : j ≠ i) :
    line (setLine v i b) j = line v j := by
  cases i <;> cases j <;> first | exact absurd rfl h | (revert v b; decide)

theorem line_setLine (v : Lines3) (i j : Quantity) (b : Bool) :
    line (setLine v i b) j = if j = i then b else line v j := by
  split
  · next h => subst h; simp
  · next h => exact line_setLine_other v i j b h

/-- Three lines are equal when each line is. -/
theorem lines_ext (v w : Lines3) (h : ∀ i, line v i = line w i) : v = w := by
  have h3 : line v .seconds = line w .seconds ∧ line v .minutes = line w .minutes ∧ line v .hours = line w .hours :=
    ⟨h _, h _, h _⟩
  clear h
  revert v w
  decide

/-! ### The guard -/

/-- A well-formed state names a quantity by its cursor, and its time is in range. -/
theorem wellFormed_iff (s : State) :
    wellFormed s = true ↔ legalTime s.time = true ∧ ∃ q : Quantity, s.cursor = q.code := by
  unfold wellFormed
  rw [Bool.and_eq_true, Option.isSome_iff_exists]
  constructor
  · rintro ⟨h, q, hq⟩
    exact ⟨h, q, code_of_ofCode _ _ hq⟩
  · rintro ⟨h, q, hq⟩
    exact ⟨h, q, by rw [hq, Quantity_ofCode_code]⟩

/-- Where the guard opens: the operation runs from the quantity the cursor names. -/
theorem guarded_of_ready (s : State) (k : Quantity → State) (q : Quantity) (hp : legalParams s.params = true)
    (ht : legalTime s.time = true) (hq : s.cursor = q.code) : guarded s k = .next (k q) := by
  simp [guarded, hp, ht, hq]

/-- Everything a guarded operation that answers a next state says. -/
theorem guarded_next (s : State) (k : Quantity → State) (t : State) (h : guarded s k = .next t) :
    legalParams s.params = true ∧ legalTime s.time = true ∧ ∃ q : Quantity, s.cursor = q.code ∧ t = k q := by
  unfold guarded at h
  split at h
  · split at h
    · split at h
      · next hp ht _ q hq =>
        injection h with h
        exact ⟨hp, ht, q, code_of_ofCode _ _ hq, h.symm⟩
      · cases h
    · cases h
  · cases h

/-- Illegal parameters are refused by name (rules R176, R194(b)). -/
theorem guarded_illegal (s : State) (k : Quantity → State) (h : legalParams s.params = false) :
    guarded s k = .refused .illegalParameter := by
  simp [guarded, h]

/-- An ill-formed state is refused by name (rules R37, R194(b)). -/
theorem guarded_illFormed (s : State) (k : Quantity → State) (hp : legalParams s.params = true)
    (h : wellFormed s = false) : guarded s k = .refused .illFormedState := by
  unfold wellFormed at h
  unfold guarded
  rw [if_pos hp]
  split
  · split
    · next ht _ q hq => simp [ht, hq] at h
    · rfl
  · rfl

/-- A ready state opens the guard at the quantity its cursor names. -/
theorem Ready.cases {s : State} (h : Ready s) :
    legalParams s.params = true ∧ legalTime s.time = true ∧ ∃ q : Quantity, s.cursor = q.code :=
  ⟨h.1, (wellFormed_iff s).1 h.2⟩

/-! ### Emission -/

@[simp] theorem emitAll_nil (s : State) : emitAll s [] = s := rfl

@[simp] theorem emitAll_cons (s : State) (e : Event) (es : List Event) :
    emitAll s (e :: es) = emitAll (emit s e) es := rfl

theorem emitAll_append (s : State) (es fs : List Event) : emitAll s (es ++ fs) = emitAll (emitAll s es) fs := by
  induction es generalizing s with
  | nil => rfl
  | cons e es ih => exact ih (emit s e)

/-- All that emitting a list does: the lines, the devices and the event list; nothing else (rule R10). -/
theorem emitAll_eq (s : State) (es : List Event) :
    emitAll s es = { s with
      out := outputsAfter s.out es
      devices := devicesAfter s.out s.devices es
      events := s.events ++ es } := by
  induction es generalizing s with
  | nil => simp [outputsAfter, devicesAfter]
  | cons e es ih =>
    rw [emitAll_cons, ih]
    simp [outputsAfter, devicesAfter]

@[simp] theorem emitAll_time (s : State) (es : List Event) : (emitAll s es).time = s.time := by rw [emitAll_eq]
@[simp] theorem emitAll_prev (s : State) (es : List Event) : (emitAll s es).prev = s.prev := by rw [emitAll_eq]
@[simp] theorem emitAll_cursor (s : State) (es : List Event) : (emitAll s es).cursor = s.cursor := by rw [emitAll_eq]
@[simp] theorem emitAll_out (s : State) (es : List Event) : (emitAll s es).out = outputsAfter s.out es := by
  rw [emitAll_eq]
@[simp] theorem emitAll_events (s : State) (es : List Event) : (emitAll s es).events = s.events ++ es := by
  rw [emitAll_eq]
@[simp] theorem emitAll_transient (s : State) (es : List Event) : (emitAll s es).transient = s.transient := by
  rw [emitAll_eq]
@[simp] theorem emitAll_devices (s : State) (es : List Event) :
    (emitAll s es).devices = devicesAfter s.out s.devices es := by
  rw [emitAll_eq]
@[simp] theorem emitAll_params (s : State) (es : List Event) : (emitAll s es).params = s.params := by rw [emitAll_eq]
@[simp] theorem emitAll_stimulus (s : State) (es : List Event) : (emitAll s es).stimulus = s.stimulus := by
  rw [emitAll_eq]
@[simp] theorem emitAll_draws (s : State) (es : List Event) : (emitAll s es).draws = s.draws := by rw [emitAll_eq]

/-! ### The lines and the devices along an event list -/

@[simp] theorem outputsAfter_nil (o : Outputs) : outputsAfter o [] = o := rfl

@[simp] theorem outputsAfter_cons (o : Outputs) (e : Event) (es : List Event) :
    outputsAfter o (e :: es) = outputsAfter (driveOutputs o e) es := rfl

theorem outputsAfter_append (o : Outputs) (es fs : List Event) :
    outputsAfter o (es ++ fs) = outputsAfter (outputsAfter o es) fs := by
  simp [outputsAfter]

@[simp] theorem devicesAfter_nil (o : Outputs) (d : Devices) : devicesAfter o d [] = d := rfl

@[simp] theorem devicesAfter_cons (o : Outputs) (d : Devices) (e : Event) (es : List Event) :
    devicesAfter o d (e :: es) = devicesAfter (driveOutputs o e) (seeEvent d o e) es := rfl

theorem devicesAfter_append (o : Outputs) (d : Devices) (es fs : List Event) :
    devicesAfter o d (es ++ fs) = devicesAfter (outputsAfter o es) (devicesAfter o d es) fs := by
  induction es generalizing o d with
  | nil => rfl
  | cons e es ih => exact ih (driveOutputs o e) (seeEvent d o e)

/-- SHIFT_BIT's lines: data at the bit, clock at 1 (rule R124). -/
@[simp] theorem outputsAfter_shiftBit (o : Outputs) (b : Bool) :
    outputsAfter o (shiftBitEvents b) = { o with srData := b, srClk := true } := rfl

/-- SHIFT_BIT's rising edge: the shift register takes the bit, once (rules R124, R132(a)). -/
@[simp] theorem devicesAfter_shiftBit (o : Outputs) (d : Devices) (b : Bool) :
    devicesAfter o d (shiftBitEvents b) = { d with shift := shiftIn d.shift b } := rfl

/-- SHIFT_BIT of each bit of a list: the shift register takes them in order. -/
theorem devicesAfter_shiftBits (o : Outputs) (d : Devices) (bs : List Bool) :
    devicesAfter o d (bs.flatMap shiftBitEvents) = { d with shift := bs.foldl shiftIn d.shift } := by
  induction bs generalizing o d with
  | nil => rfl
  | cons b bs ih => rw [List.flatMap_cons, devicesAfter_append, devicesAfter_shiftBit, ih]; rfl

/-- SHIFT_BIT of each bit of a nonempty list: data at the last bit, clock at 1. -/
theorem outputsAfter_shiftBits (o : Outputs) (bs : List Bool) (b : Bool) :
    outputsAfter o ((bs ++ [b]).flatMap shiftBitEvents) = { o with srData := b, srClk := true } := by
  induction bs generalizing o with
  | nil => rfl
  | cons c bs ih => rw [List.cons_append, List.flatMap_cons, outputsAfter_append, ih]; rfl

/-- The bits SERIALIZE sends, in order (rule R125). -/
theorem serializeEvents_eq (p : Pattern) :
    serializeEvents p = (msbFirst.map p.getLsbD).flatMap shiftBitEvents := by
  simp [serializeEvents, List.flatMap_map]

/-- After the 16 bits the shift register holds the pattern (rules R125, R132(a)). -/
theorem shiftIn_bits (p q : Pattern) : (msbFirst.map p.getLsbD).foldl shiftIn q = p := by
  apply BitVec.eq_of_getLsbD_eq
  intro k hk
  simp only [msbFirst, List.map_cons, List.map_nil, List.foldl_cons, List.foldl_nil, shiftIn]
  interval_cases k <;> simp

@[simp] theorem outputsAfter_serialize (o : Outputs) (p : Pattern) :
    outputsAfter o (serializeEvents p) = { o with srData := p.getLsbD 0, srClk := true } := by
  rw [serializeEvents_eq]
  exact outputsAfter_shiftBits o ((msbFirst.map p.getLsbD).dropLast) (p.getLsbD 0)

@[simp] theorem devicesAfter_serialize (o : Outputs) (d : Devices) (p : Pattern) :
    devicesAfter o d (serializeEvents p) = { d with shift := p } := by
  rw [serializeEvents_eq, devicesAfter_shiftBits, shiftIn_bits]

@[simp] theorem outputsAfter_strobe (o : Outputs) : outputsAfter o strobeEvents = { o with srStrobe := false } := rfl

/-- STROBE transfers the shift register to the latches (rules R126, R132(b)). -/
@[simp] theorem devicesAfter_strobe (o : Outputs) (d : Devices) :
    devicesAfter o d strobeEvents = { d with latch := d.shift } := rfl

@[simp] theorem outputsAfter_bankSwitch (o : Outputs) (old new : Quantity) :
    outputsAfter o (bankSwitchEvents old new) =
      { o with bankN := setLine (setLine o.bankN old true) new false } := rfl

@[simp] theorem devicesAfter_bankSwitch (o : Outputs) (d : Devices) (old new : Quantity) :
    devicesAfter o d (bankSwitchEvents old new) = d := rfl

/-- The lines after a display step (rule R128). -/
@[simp] theorem outputsAfter_display (o : Outputs) (old new : Quantity) (p : Pattern) :
    outputsAfter o (displayEvents old new p) =
      { srData := p.getLsbD 0
        srClk := true
        srStrobe := false
        bankN := setLine (setLine o.bankN old true) new false } := by
  simp [displayEvents, outputsAfter_append]

/-- The devices after a display step hold its pattern (rules R128, R132). -/
@[simp] theorem devicesAfter_display (o : Outputs) (d : Devices) (old new : Quantity) (p : Pattern) :
    devicesAfter o d (displayEvents old new p) = { shift := p, latch := p } := by
  simp [displayEvents, devicesAfter_append]

@[simp] theorem length_serializeEvents (p : Pattern) : (serializeEvents p).length = 48 := rfl

@[simp] theorem length_displayEvents (old new : Quantity) (p : Pattern) :
    (displayEvents old new p).length = 52 := rfl

/-- The pin-change trace's test, said once (rule R81): the event is SEC_CLR or changes the levels. -/
theorem changesPin_iff (o : Outputs) (e : Event) :
    changesPin o e = true ↔ e = .secClr ∨ driveOutputs o e ≠ o := by
  obtain ⟨a, b, c, v⟩ := o
  rcases e with _ | l | l | l | ⟨q, l⟩ <;> simp only [changesPin, driveOutputs, ne_eq, Outputs.mk.injEq]
  · simp
  · cases a <;> cases l <;> simp
  · cases b <;> cases l <;> simp
  · cases c <;> cases l <;> simp
  · cases q <;> cases l <;> revert v <;> decide

end Sys2Proof.Machine
end

