-- ==== Sys2Proof/Laws/Pass.lean ====
section
/-! SUPPORT. What each sub-operation and a whole pass do to each field, said once. -/

namespace Sys2Proof.Machine

/-! ### The increments keep the time in range -/

theorem legalTime_iff (t : Time) :
    legalTime t = true ↔ t.second.toNat ≤ 59 ∧ t.minute.toNat ≤ 59 ∧ 1 ≤ t.hour.toNat ∧ t.hour.toNat ≤ 12 := by
  simp [legalTime, and_assoc]

theorem incHour_legal (t : Time) (h : legalTime t = true) : legalTime (incHour t) = true := by
  rw [legalTime_iff] at *
  unfold incHour
  split
  · exact ⟨h.1, h.2.1, by simp, by simp⟩
  · next hne =>
    have : t.hour.toNat ≠ 12 := fun e => hne (BitVec.eq_of_toNat_eq e)
    simp only [BitVec.toNat_add, BitVec.toNat_ofNat]
    omega

theorem incMin_legal (t : Time) (h : legalTime t = true) : legalTime (incMin t) = true := by
  unfold incMin
  split
  · refine incHour_legal _ ?_
    rw [legalTime_iff] at *
    exact ⟨h.1, by simp, h.2.2⟩
  · next hne =>
    rw [legalTime_iff] at *
    have : t.minute.toNat ≠ 59 := fun e => hne (BitVec.eq_of_toNat_eq e)
    simp only [BitVec.toNat_add, BitVec.toNat_ofNat]
    omega

theorem incSec_legal (t : Time) (h : legalTime t = true) : legalTime (incSec t) = true := by
  unfold incSec
  split
  · refine incMin_legal _ ?_
    rw [legalTime_iff] at *
    exact ⟨by simp, h.2⟩
  · next hne =>
    rw [legalTime_iff] at *
    have : t.second.toNat ≠ 59 := fun e => hne (BitVec.eq_of_toNat_eq e)
    simp only [BitVec.toNat_add, BitVec.toNat_ofNat]
    omega

theorem action_legal (t : Time) (q : Quantity) (h : legalTime t = true) : legalTime (action t q) = true := by
  cases q
  · exact incSec_legal t h
  · exact incMin_legal t h
  · exact incHour_legal t h

theorem ite_action_legal (t : Time) (q : Quantity) (b : Bool) (h : legalTime t = true) :
    legalTime (if b = true then action t q else t) = true := by
  split
  · exact action_legal t q h
  · exact h

/-! ### fireAction, EDGE, DB_PASS -/

@[simp] theorem fireAction_time (i : Quantity) (b : Bool) (s : State) :
    (fireAction i b s).time = if b = true then action s.time i else s.time := by cases b <;> rfl
@[simp] theorem fireAction_prev (i : Quantity) (b : Bool) (s : State) : (fireAction i b s).prev = s.prev := by
  cases b <;> rfl
@[simp] theorem fireAction_cursor (i : Quantity) (b : Bool) (s : State) : (fireAction i b s).cursor = s.cursor := by
  cases b <;> rfl
@[simp] theorem fireAction_out (i : Quantity) (b : Bool) (s : State) : (fireAction i b s).out = s.out := by
  cases b <;> rfl
@[simp] theorem fireAction_events (i : Quantity) (b : Bool) (s : State) : (fireAction i b s).events = s.events := by
  cases b <;> rfl
@[simp] theorem fireAction_transient (i : Quantity) (b : Bool) (s : State) :
    (fireAction i b s).transient = s.transient := by cases b <;> rfl
@[simp] theorem fireAction_devices (i : Quantity) (b : Bool) (s : State) :
    (fireAction i b s).devices = s.devices := by cases b <;> rfl
@[simp] theorem fireAction_params (i : Quantity) (b : Bool) (s : State) : (fireAction i b s).params = s.params := by
  cases b <;> rfl
@[simp] theorem fireAction_stimulus (i : Quantity) (b : Bool) (s : State) :
    (fireAction i b s).stimulus = s.stimulus := by cases b <;> rfl
@[simp] theorem fireAction_draws (i : Quantity) (b : Bool) (s : State) : (fireAction i b s).draws = s.draws := by
  cases b <;> rfl

/-- All that EDGE does (rule R151). -/
theorem edge_eq (i : Quantity) (inp : Sample) (s : State) :
    edge i inp s = { s with
      time := if fires s.prev inp i = true then action s.time i else s.time
      prev := setLine s.prev i (sampleBtn inp i)
      transient := { s.transient with fire := setLine s.transient.fire i (fires s.prev inp i) } } := by
  unfold edge fireAction
  cases fires s.prev inp i <;> rfl

/-- Whether another button fires does not depend on the line EDGE has stored (rule R156(f)). -/
theorem fires_setLine_other (v : Lines3) (inp : Sample) (i j : Quantity) (b : Bool) (h : j ≠ i) :
    fires (setLine v i b) inp j = fires v inp j := by
  unfold fires
  rw [line_setLine_other _ _ _ _ h]

/-- The time after a debounce pass: each button that fires runs its increment, in the order 0, 1, 2. -/
def timeAfterButtons (t : Time) (prev : Lines3) (inp : Sample) : Time :=
  let t0 := if fires prev inp .seconds = true then action t .seconds else t
  let t1 := if fires prev inp .minutes = true then action t0 .minutes else t0
  if fires prev inp .hours = true then action t1 .hours else t1

/-- The three lines stored by a debounce pass are the sampled lines. -/
theorem setLines_sample (v : Lines3) (inp : Sample) :
    setLine (setLine (setLine v .seconds (sampleBtn inp .seconds)) .minutes (sampleBtn inp .minutes)) .hours
      (sampleBtn inp .hours) = inp.btnN := by
  apply lines_ext
  intro i
  cases i <;> simp [line_setLine, sampleBtn]

/-- The fire bits a debounce pass leaves in the transients. -/
def fireLines (prev : Lines3) (inp : Sample) : Lines3 :=
  setLine (setLine (setLine 0#3 .seconds (fires prev inp .seconds)) .minutes (fires prev inp .minutes)) .hours
    (fires prev inp .hours)

theorem setLines_fire (v prev : Lines3) (inp : Sample) :
    setLine (setLine (setLine v .seconds (fires prev inp .seconds)) .minutes (fires prev inp .minutes)) .hours
      (fires prev inp .hours) = fireLines prev inp := by
  apply lines_ext
  intro i
  cases i <;> simp [fireLines, line_setLine]

/-- All that DB_PASS does (rule R152). -/
theorem dbPass_eq (inp : Sample) (s : State) :
    dbPass inp s = { s with
      time := timeAfterButtons s.time s.prev inp
      prev := inp.btnN
      transient := { s.transient with fire := fireLines s.prev inp } } := by
  unfold dbPass
  rw [edge_eq, edge_eq, edge_eq]
  simp only [setLines_sample, timeAfterButtons,
    fires_setLine_other _ _ _ _ _ (by decide : Quantity.minutes ≠ .seconds),
    fires_setLine_other _ _ _ _ _ (by decide : Quantity.hours ≠ .minutes),
    fires_setLine_other _ _ _ _ _ (by decide : Quantity.hours ≠ .seconds), setLines_fire]

theorem timeAfterButtons_legal (t : Time) (prev : Lines3) (inp : Sample) (h : legalTime t = true) :
    legalTime (timeAfterButtons t prev inp) = true :=
  ite_action_legal _ _ _ (ite_action_legal _ _ _ (ite_action_legal _ _ _ h))

/-! ### SEC_POLL -/

/-- The events of the seconds poll (rule R170). -/
def pollEvents (tick : Bool) : List Event := if tick = true then [.secClr] else []

/-- The time after the seconds poll (rule R170). -/
def timeAfterPoll (t : Time) (tick : Bool) : Time := if tick = true then incSec t else t

/-- All that SEC_POLL does (rule R170): SEC_CLR drives no register and no device. -/
theorem secPoll_eq (inp : Sample) (s : State) :
    secPoll inp s = { s with
      time := timeAfterPoll s.time (tickHit s.params inp)
      events := s.events ++ pollEvents (tickHit s.params inp)
      transient := { s.transient with tickHit := some (tickHit s.params inp) } } := by
  unfold secPoll tickEffect
  cases tickHit s.params inp
  · simp [noteTick, timeAfterPoll, pollEvents]
  · rfl

theorem timeAfterPoll_legal (t : Time) (b : Bool) (h : legalTime t = true) : legalTime (timeAfterPoll t b) = true := by
  unfold timeAfterPoll
  split
  · exact incSec_legal t h
  · exact h

/-! ### DISP_STEP -/

/-- All that DISP_STEP does (rule R128). -/
theorem dispStep_eq (q : Quantity) (s : State) :
    dispStep q s = { s with
      cursor := (nextQuantity q).code
      out :=
        { srData := (encodePattern (field s.time (nextQuantity q))).getLsbD 0
          srClk := true
          srStrobe := false
          bankN := setLine (setLine s.out.bankN q true) (nextQuantity q) false }
      events := s.events ++ displayEvents q (nextQuantity q) (encodePattern (field s.time (nextQuantity q)))
      transient := { s.transient with pattern := some (encodePattern (field s.time (nextQuantity q))) }
      devices :=
        { shift := encodePattern (field s.time (nextQuantity q))
          latch := encodePattern (field s.time (nextQuantity q)) } } := by
  unfold dispStep
  rw [emitAll_eq]
  simp [setCursor, notePattern]

/-! ### PASS -/

/-- `prev` after a pass (rules R151, R154). -/
def prevAfter (s : State) (inp : Sample) : Lines3 := if gateHit s.params inp = true then inp.btnN else s.prev

/-- All that P2 does (rules R150, R154, R171). -/
theorem gatePhase_eq (inp : Sample) (s : State) :
    gatePhase inp s = { s with
      time := if gateHit s.params inp = true then timeAfterButtons s.time s.prev inp else s.time
      prev := prevAfter s inp
      transient := { s.transient with
        gateHit := some (gateHit s.params inp)
        fire := if gateHit s.params inp = true then fireLines s.prev inp else s.transient.fire } } := by
  unfold gatePhase prevAfter
  by_cases hg : gateHit s.params inp = true
  · simp [hg, dbPass_eq, gateCheck, noteGate]
  · simp [hg, gateCheck, noteGate]

/-- The time after P1 and P2 of a pass (rule R174). -/
def timeAfterPolls (s : State) (inp : Sample) : Time :=
  let t := timeAfterPoll s.time (tickHit s.params inp)
  if gateHit s.params inp = true then timeAfterButtons t s.prev inp else t

/-- The pattern a pass renders (rules R128, R174). -/
def renderedPattern (s : State) (inp : Sample) (q : Quantity) : Pattern :=
  encodePattern (field (timeAfterPolls s inp) (nextQuantity q))

/-- All that PASS does (rule R171), from the quantity q its cursor names. -/
theorem pass_eq (inp : Sample) (q : Quantity) (s : State) :
    pass inp q s = { s with
      time := timeAfterPolls s inp
      prev := prevAfter s inp
      cursor := (nextQuantity q).code
      out :=
        { srData := (renderedPattern s inp q).getLsbD 0
          srClk := true
          srStrobe := false
          bankN := setLine (setLine s.out.bankN q true) (nextQuantity q) false }
      events := pollEvents (tickHit s.params inp) ++ displayEvents q (nextQuantity q) (renderedPattern s inp q)
      transient := Transient.clear
      devices := { shift := renderedPattern s inp q, latch := renderedPattern s inp q } } := by
  unfold pass
  rw [dispStep_eq, gatePhase_eq, secPoll_eq]
  rfl

@[simp] theorem pass_time (inp : Sample) (q : Quantity) (s : State) : (pass inp q s).time = timeAfterPolls s inp := by
  rw [pass_eq inp q s]
@[simp] theorem pass_prev (inp : Sample) (q : Quantity) (s : State) : (pass inp q s).prev = prevAfter s inp := by
  rw [pass_eq inp q s]
@[simp] theorem pass_cursor (inp : Sample) (q : Quantity) (s : State) :
    (pass inp q s).cursor = (nextQuantity q).code := by rw [pass_eq inp q s]
@[simp] theorem pass_out (inp : Sample) (q : Quantity) (s : State) :
    (pass inp q s).out =
      { srData := (renderedPattern s inp q).getLsbD 0
        srClk := true
        srStrobe := false
        bankN := setLine (setLine s.out.bankN q true) (nextQuantity q) false } := by rw [pass_eq inp q s]
@[simp] theorem pass_events (inp : Sample) (q : Quantity) (s : State) :
    (pass inp q s).events =
      pollEvents (tickHit s.params inp) ++ displayEvents q (nextQuantity q) (renderedPattern s inp q) := by
  rw [pass_eq inp q s]
@[simp] theorem pass_transient (inp : Sample) (q : Quantity) (s : State) :
    (pass inp q s).transient = Transient.clear := by rw [pass_eq inp q s]
@[simp] theorem pass_devices (inp : Sample) (q : Quantity) (s : State) :
    (pass inp q s).devices = { shift := renderedPattern s inp q, latch := renderedPattern s inp q } := by
  rw [pass_eq inp q s]
@[simp] theorem pass_params (inp : Sample) (q : Quantity) (s : State) : (pass inp q s).params = s.params := by
  rw [pass_eq inp q s]
@[simp] theorem pass_stimulus (inp : Sample) (q : Quantity) (s : State) : (pass inp q s).stimulus = s.stimulus := by
  rw [pass_eq inp q s]
@[simp] theorem pass_draws (inp : Sample) (q : Quantity) (s : State) : (pass inp q s).draws = s.draws := by
  rw [pass_eq inp q s]

theorem timeAfterPolls_legal (s : State) (inp : Sample) (h : legalTime s.time = true) :
    legalTime (timeAfterPolls s inp) = true := by
  unfold timeAfterPolls
  have h1 := timeAfterPoll_legal s.time (tickHit s.params inp) h
  simp only
  split
  · exact timeAfterButtons_legal _ _ _ h1
  · exact h1

end Sys2Proof.Machine
end

