-- ==== Sys2Proof/Laws/Exec.lean ====
section
/-! SUPPORT. One lemma per operation that says, where it answers a next state, everything that state is; and
where the guard opens, that it answers. The provers cite these instead of unfolding exec. -/

namespace Sys2Proof.Machine

/-- What an operation other than RESET and the reserved code computes, from the quantity its cursor names. -/
def meaningAt (i : Instr) (q : Quantity) (s : State) : State :=
  match i with
  | .reset => s
  | .pass inp => pass inp q s
  | .secPoll inp => secPoll inp s
  | .gateCheck inp => gateCheck inp s
  | .dbPass inp => dbPass inp s
  | .edge j inp => edge j inp s
  | .incSec => setTime s (incSec s.time)
  | .incMin => setTime s (incMin s.time)
  | .incHour => setTime s (incHour s.time)
  | .dispStep => dispStep q s
  | .encode v => notePattern s (encodePattern v.toNat)
  | .shiftBit b => emitAll s (shiftBitEvents b)
  | .serialize p => emitAll s (serializeEvents p)
  | .strobe => emitAll s strobeEvents
  | .bankSwitch old new => emitAll s (bankSwitchEvents old new)
  | .reserved => s

/-- The operations that run from a ready state: all but the refused operands and the reserved code. -/
def runnable (i : Instr) : Bool :=
  match i with
  | .reset => true
  | .pass _ => true
  | .secPoll _ => true
  | .gateCheck _ => true
  | .dbPass _ => true
  | .edge _ _ => true
  | .incSec => true
  | .incMin => true
  | .incHour => true
  | .dispStep => true
  | .encode v => valueInRange v
  | .shiftBit _ => true
  | .serialize p => patternInRange p
  | .strobe => true
  | .bankSwitch _ _ => true
  | .reserved => false

/-- exec of any operation but RESET is the guard around its meaning. -/
theorem exec_eq_guarded (i : Instr) (s : State) (hr : i ≠ .reset) (h : runnable i = true) :
    exec i s = guarded s fun q => meaningAt i q s := by
  cases i with
  | reset => exact absurd rfl hr
  | encode v => exact if_pos h
  | serialize p => exact if_pos h
  | reserved => exact absurd h (by decide)
  | _ => rfl

/-- An operation that is not runnable is refused by name, whatever the state (rule R83). -/
theorem exec_not_runnable (i : Instr) (s : State) (h : runnable i = false) :
    exec i s = .refused .operandOutOfRange ∨ exec i s = .refused .reservedCode := by
  cases i with
  | encode v => exact .inl (if_neg (by simpa [runnable] using h))
  | serialize p => exact .inl (if_neg (by simpa [runnable] using h))
  | reserved => exact .inr rfl
  | _ => exact absurd h (by simp [runnable])

/-- The inversion of exec: a next state is RESET's, or the meaning's from a ready state. -/
theorem exec_next (i : Instr) (s t : State) (h : exec i s = .next t) :
    (i = .reset ∧ t = resetBlock { s with events := [] }) ∨
      (i ≠ .reset ∧ runnable i = true ∧ legalParams s.params = true ∧ legalTime s.time = true ∧
        ∃ q : Quantity, s.cursor = q.code ∧ t = meaningAt i q s) := by
  by_cases hr : i = .reset
  · subst hr
    refine .inl ⟨rfl, ?_⟩
    simpa [exec, execReset, abandonAfter] using h.symm
  · refine .inr ⟨hr, ?_⟩
    have hrun : runnable i = true := by
      by_contra hn
      rcases exec_not_runnable i s (by simpa using hn) with he | he <;> rw [he] at h <;> cases h
    rw [exec_eq_guarded i s hr hrun] at h
    obtain ⟨hp, ht, q, hq, rfl⟩ := guarded_next _ _ _ h
    exact ⟨hrun, hp, ht, q, hq, rfl⟩

/-- RESET always answers (rule R210). -/
theorem exec_reset (s : State) : exec .reset s = .next (resetBlock { s with events := [] }) := rfl

/-- Where the operand is legal and the state ready, the operation answers its meaning (rule R194(a)). -/
theorem exec_of_ready (i : Instr) (s : State) (q : Quantity) (hr : i ≠ .reset) (hi : runnable i = true)
    (hp : legalParams s.params = true) (ht : legalTime s.time = true) (hq : s.cursor = q.code) :
    exec i s = .next (meaningAt i q s) := by
  rw [exec_eq_guarded i s hr hi]
  exact guarded_of_ready s _ q hp ht hq

/-- An abandoned pass answers from a ready state: RESET after the first k events of the pass. -/
theorem abandonedPass_of_ready (k : Nat) (inp : Sample) (s : State) (q : Quantity)
    (hp : legalParams s.params = true) (ht : legalTime s.time = true) (hq : s.cursor = q.code) :
    abandonedPass k inp s = .next (abandonAfter s ((pass inp q s).events.take k)) :=
  guarded_of_ready s _ q hp ht hq

/-- What abandoning leaves (rule R210): the reset registers, the events that happened, the devices that saw
them. -/
theorem abandonAfter_eq (s : State) (es : List Event) :
    abandonAfter s es = { s with
      time := Time.reset
      prev := 0b111#3
      cursor := Quantity.hours.code
      out := Outputs.reset
      events := es
      transient := Transient.clear
      devices := devicesAfter s.out s.devices es } := by
  unfold abandonAfter
  rw [emitAll_eq]
  simp [resetBlock]

end Sys2Proof.Machine
end

