-- ==== Sys2Proof/Laws/PerInstr.lean ====
section
/-! SUPPORT. A statement about every operation as a term, one lemma per constructor of Instr. -/

namespace Sys2Proof.Laws

/-- The four low bits of an operation's word are its code of rule R82, whatever its operands. -/
def OpcodeBits.Statement (i : Instr) : Prop := ∀ p : Params, encode p i % 16 = i.opcode ∧ i.opcode < 16

theorem encode_low_bits (p : Params) (i : Instr) (h : i.opcode < 16) : encode p i % 16 = i.opcode := by
  unfold encode
  omega

theorem OpcodeBits.reset : OpcodeBits.Statement .reset :=
  fun p => ⟨encode_low_bits p _ (by decide), by decide⟩
theorem OpcodeBits.pass (inp : Sample) : OpcodeBits.Statement (.pass inp) :=
  fun p => ⟨encode_low_bits p _ (by simp [Instr.opcode]), by simp [Instr.opcode]⟩
theorem OpcodeBits.secPoll (inp : Sample) : OpcodeBits.Statement (.secPoll inp) :=
  fun p => ⟨encode_low_bits p _ (by simp [Instr.opcode]), by simp [Instr.opcode]⟩
theorem OpcodeBits.gateCheck (inp : Sample) : OpcodeBits.Statement (.gateCheck inp) :=
  fun p => ⟨encode_low_bits p _ (by simp [Instr.opcode]), by simp [Instr.opcode]⟩
theorem OpcodeBits.dbPass (inp : Sample) : OpcodeBits.Statement (.dbPass inp) :=
  fun p => ⟨encode_low_bits p _ (by simp [Instr.opcode]), by simp [Instr.opcode]⟩
theorem OpcodeBits.edge (i : Quantity) (inp : Sample) : OpcodeBits.Statement (.edge i inp) :=
  fun p => ⟨encode_low_bits p _ (by simp [Instr.opcode]), by simp [Instr.opcode]⟩
theorem OpcodeBits.incSec : OpcodeBits.Statement .incSec :=
  fun p => ⟨encode_low_bits p _ (by decide), by decide⟩
theorem OpcodeBits.incMin : OpcodeBits.Statement .incMin :=
  fun p => ⟨encode_low_bits p _ (by decide), by decide⟩
theorem OpcodeBits.incHour : OpcodeBits.Statement .incHour :=
  fun p => ⟨encode_low_bits p _ (by decide), by decide⟩
theorem OpcodeBits.dispStep : OpcodeBits.Statement .dispStep :=
  fun p => ⟨encode_low_bits p _ (by decide), by decide⟩
theorem OpcodeBits.encode (v : BitVec 6) : OpcodeBits.Statement (.encode v) :=
  fun p => ⟨encode_low_bits p _ (by simp [Instr.opcode]), by simp [Instr.opcode]⟩
theorem OpcodeBits.shiftBit (b : Bool) : OpcodeBits.Statement (.shiftBit b) :=
  fun p => ⟨encode_low_bits p _ (by simp [Instr.opcode]), by simp [Instr.opcode]⟩
theorem OpcodeBits.serialize (q : Pattern) : OpcodeBits.Statement (.serialize q) :=
  fun p => ⟨encode_low_bits p _ (by simp [Instr.opcode]), by simp [Instr.opcode]⟩
theorem OpcodeBits.strobe : OpcodeBits.Statement .strobe :=
  fun p => ⟨encode_low_bits p _ (by decide), by decide⟩
theorem OpcodeBits.bankSwitch (old new : Quantity) : OpcodeBits.Statement (.bankSwitch old new) :=
  fun p => ⟨encode_low_bits p _ (by simp [Instr.opcode]), by simp [Instr.opcode]⟩
theorem OpcodeBits.reserved : OpcodeBits.Statement .reserved :=
  fun p => ⟨encode_low_bits p _ (by decide), by decide⟩

end Sys2Proof.Laws
end

