-- ==== Sys2Proof/Laws/Samples.lean ====
section
/-! SUPPORT. What the sample-record word is for a record that fits its ports, and for one that does not. -/

namespace Sys2Proof

/-- The word of a record that fits loses no bit of its counts (rule R80). -/
theorem packSample_of_fits (p : Params) (inp : Sample) (h : inp.fits p = true) :
    packSample p inp = (inp.secCount * 2 ^ p.dbW + inp.dbCount) * 8 + inp.btnN.toNat := by
  have hf : inp.secCount < 2 ^ p.secW ∧ inp.dbCount < 2 ^ p.dbW := by simpa [Sample.fits] using h
  rw [packSample, Nat.mod_eq_of_lt hf.1, Nat.mod_eq_of_lt hf.2]

/-- The word of any record is that of the record whose counts are cut to the ports' bits (log entry 20). -/
theorem packSample_cut (p : Params) (inp : Sample) :
    packSample p { inp with secCount := inp.secCount % 2 ^ p.secW, dbCount := inp.dbCount % 2 ^ p.dbW } =
      packSample p inp := by
  simp only [packSample, Nat.mod_mod]

end Sys2Proof
end

