-- ==== Sys2Proof/Tests/Slice0.lean ====
section
/-! SUPPORT. Tests of the model against the worked examples, vectors and programs of 95_test_vectors.md,
with the example configuration of its section 0. -/

namespace Sys2Proof.Tests

open Sys2Proof.Machine

/-! ### Helpers -/

/-- The example configuration of 95_test_vectors.md section 0, with the given comparison. -/
def demo (cmp : GateCmp) : Params :=
  { secW := 16, secThreshold := 0x80#8, dbW := 8, dbThreshold := 0x40#8, gateCmp := cmp }

/-- A sample record. -/
def smp (sec db btn : Nat) : Sample := { secCount := sec, dbCount := db, btnN := BitVec.ofNat 3 btn }

/-- The reset state of the example configuration with the given time, prev and cursor. -/
def st (h m s prev : Nat) (cur : Quantity) : State :=
  { State.resetOf (demo .eq) with
    time := { second := BitVec.ofNat 6 s, minute := BitVec.ofNat 6 m, hour := BitVec.ofNat 4 h }
    prev := BitVec.ofNat 3 prev
    cursor := cur.code }

/-- What a test reads of an outcome: a view of the next state, or none. -/
def seen {α : Type} (o : Host.Outcome State Fault Refusal) (f : State → α) : Option α :=
  match o with
  | .next t => some (f t)
  | .fault _ => none
  | .refused _ => none

/-- The refusal of an outcome. -/
def why (o : Host.Outcome State Fault Refusal) : Option Refusal :=
  match o with
  | .next _ => none
  | .fault _ => none
  | .refused r => some r

/-- Hour, minute, second, prev and cursor of a state. -/
def clock (s : State) : List Nat :=
  [s.time.hour.toNat, s.time.minute.toNat, s.time.second.toNat, s.prev.toNat, s.cursor.toNat]

/-- sr_data, sr_clk, sr_strobe and bank_n of a state. -/
def pins (s : State) : Bool × Bool × Bool × Nat :=
  (s.out.srData, s.out.srClk, s.out.srStrobe, s.out.bankN.toNat)

/-- The event codes of a state's event list (rule R81). -/
def codes (s : State) : List Nat := s.events.map fun e => e.code.toNat

/-- The hexadecimal digits of n, most significant first. -/
def hexDigits (n : Nat) : Nat → List Nat
  | 0 => []
  | k + 1 => hexDigits (n / 16) k ++ [n % 16]

/-- The views of k steps, stopping where one is refused. -/
def after (k : Nat) (s : State) : Option State := seen (Sys2Proof.core.run k s) id

/-! ### WellFormed refuses an ill-formed term of each check -/

theorem test_wf_refuses_wide_sec_count : Instr.wellFormed (demo .eq) (.pass (smp 0x10000 0 7)) = false := by decide
theorem test_wf_refuses_wide_db_count : Instr.wellFormed (demo .eq) (.edge .hours (smp 0 0x100 7)) = false := by decide
theorem test_wf_refuses_value_sixty : Instr.wellFormed (demo .eq) (.encode 60#6) = false := by decide
theorem test_wf_refuses_pattern_bit_fifteen : Instr.wellFormed (demo .eq) (.serialize 0x8001#16) = false := by decide

/-! ### Decoding: words written out from rules R80 and R82 -/

/-- What the decoder reads under the example configuration. -/
def read (w : Nat) : Option Instr := (decode (demo .eq) w).toOption

theorem test_decode_reset : read 0x0 = some .reset := by decide
/-- IN=0x4000007 is `sec=0x8000 db=0x00 btn=0b111` (95_test_vectors.md P1). -/
theorem test_decode_pass : read 0x40000071 = some (.pass (smp 0x8000 0x00 0b111)) := by decide
/-- IN=0x407FA07 is `sec=0x80FF db=0x40 btn=0b111` (95_test_vectors.md P3). -/
theorem test_decode_sec_poll : read 0x407FA072 = some (.secPoll (smp 0x80FF 0x40 0b111)) := by decide
/-- IN=0x0000205 is `sec=0x0000 db=0x40 btn=0b101` (95_test_vectors.md P2). -/
theorem test_decode_gate_check : read 0x00002053 = some (.gateCheck (smp 0x0000 0x40 0b101)) := by decide
/-- IN=0x0020007 is `sec=0x0040 db=0x00 btn=0b111` (95_test_vectors.md P7). -/
theorem test_decode_db_pass : read 0x00200074 = some (.dbPass (smp 0x0040 0x00 0b111)) := by decide
/-- IN=0x207 with button 1 below it. -/
theorem test_decode_edge : read 0x81D5 = some (.edge .minutes (smp 0x0000 0x40 0b111)) := by decide
theorem test_decode_inc_sec : read 0x6 = some .incSec := by decide
theorem test_decode_inc_min : read 0x7 = some .incMin := by decide
theorem test_decode_inc_hour : read 0x8 = some .incHour := by decide
theorem test_decode_disp_step : read 0x9 = some .dispStep := by decide
theorem test_decode_encode : read 0xCA = some (.encode 12#6) := by decide
theorem test_decode_shift_bit : read 0x1B = some (.shiftBit true) := by decide
theorem test_decode_serialize : read 0x0404C = some (.serialize 0x0404#16) := by decide
theorem test_decode_strobe : read 0xD = some .strobe := by decide
theorem test_decode_bank_switch : read 0x8E = some (.bankSwitch .hours .seconds) := by decide
theorem test_decode_reserved : read 0xF = some .reserved := by decide
theorem test_decode_refuses_excess_bits : decode (demo .eq) 0x16 = .error .excessBits := by decide
theorem test_decode_refuses_wide_sample : decode (demo .eq) 0x80000001 = .error .excessBits := by decide
theorem test_decode_refuses_button_three : decode (demo .eq) 0x35 = .error .unusedButtonIndex := by decide
theorem test_decode_refuses_cursor_three : decode (demo .eq) 0x3E = .error .unusedCursorCode := by decide

/-- Every row of opcode_table.json, at the free thresholds of State.reset, is decoded and run by the next
step; 0xF alone is refused. -/
theorem test_table_rows_decode :
    (List.range 16).map (fun w => (decodeTableWord 8 w).map Instr.opcode) = (List.range 16).map some := by decide
theorem test_table_rows_step :
    (List.range 16).map (fun w => (why (step (State.reset.withFetchWord 8 w))).isNone) =
      List.replicate 15 true ++ [false] := by decide

/-! ### Time Model (section 2.1) -/

theorem test_inc_sec_full_cascade : seen (exec .incSec (st 12 59 59 7 .hours)) clock = some [1, 0, 0, 7, 2] := by decide
theorem test_inc_sec_minute_cascade : seen (exec .incSec (st 5 30 59 7 .hours)) clock = some [5, 31, 0, 7, 2] := by decide
theorem test_inc_min_leaves_seconds : seen (exec .incMin (st 11 59 7 7 .hours)) clock = some [12, 0, 7, 7, 2] := by decide
theorem test_inc_min_ordinary : seen (exec .incMin (st 3 15 59 7 .hours)) clock = some [3, 16, 59, 7, 2] := by decide
theorem test_inc_hour_wraps : seen (exec .incHour (st 12 34 56 7 .hours)) clock = some [1, 34, 56, 7, 2] := by decide
theorem test_inc_hour_eleven : seen (exec .incHour (st 11 59 59 7 .hours)) clock = some [12, 59, 59, 7, 2] := by decide

/-! ### Input Debouncer (sections 2.6, 2.7) -/

theorem test_gate_check_eq :
    [0x00, 0x3F, 0x40, 0x41, 0xFF].map (gateHit (demo .eq) <| smp 0 · 7) = [false, false, true, false, false] := by decide
theorem test_gate_check_ge :
    [0x00, 0x3F, 0x40, 0x41, 0xFF].map (gateHit (demo .ge) <| smp 0 · 7) = [false, false, true, true, true] := by decide
theorem test_gate_check_runs :
    seen (exec (.gateCheck (smp 0 0x40 7)) (st 12 0 0 7 .hours)) (fun t => t.transient.gateHit) = some (some true) := by decide
theorem test_edge_release_fires :
    seen (exec (.edge .minutes (smp 0 0 0b111)) (st 12 0 0 0b101 .hours)) clock = some [12, 1, 0, 0b111, 2] := by decide
theorem test_edge_press_does_not_fire :
    seen (exec (.edge .seconds (smp 0 0 0b110)) (st 12 0 0 0b111 .hours)) clock = some [12, 0, 0, 0b110, 2] := by decide
theorem test_db_pass_all_three :
    seen (exec (.dbPass (smp 0 0 0b111)) (st 12 0 59 0b000 .hours)) clock = some [1, 2, 0, 0b111, 2] := by decide
/-- Section 2.7 says of this vector that nothing fires; the table of rule R79 fires buttons 1 and 2, whose
recorded level is 0 and whose sampled level is 1. The rule is followed (log entry 19). -/
theorem test_db_pass_two_of_three :
    seen (exec (.dbPass (smp 0 0 0b110)) (st 12 0 0 0b001 .hours)) clock = some [1, 1, 0, 0b110, 2] := by decide

/-! ### Display Driver (sections 2.2 to 2.5) -/

theorem test_encode_corners :
    [0, 9, 10, 12, 45, 50, 59].map encodePattern =
      [0x0001#16, 0x0200#16, 0x0401#16, 0x0404#16, 0x2020#16, 0x4001#16, 0x4200#16] := by decide
theorem test_encode_runs :
    seen (exec (.encode 37#6) (st 12 0 0 7 .hours)) (fun t => t.transient.pattern) = some (some 0x1080#16) := by decide
theorem test_encode_refuses_sixty : why (exec (.encode 60#6) (st 12 0 0 7 .hours)) = some .operandOutOfRange := by decide
theorem test_shift_bit_one : seen (exec (.shiftBit true) (st 12 0 0 7 .hours)) codes = some [0x3, 0x4, 0x5] := by decide
theorem test_serialize_msb_first :
    seen (exec (.serialize 0x0401#16) (st 12 0 0 7 .hours)) codes =
      some (hexDigits 0x245245245245245345245245245245245245245245245345 48) := by decide
theorem test_serialize_refuses_bit_fifteen :
    why (exec (.serialize 0x8001#16) (st 12 0 0 7 .hours)) = some .operandOutOfRange := by decide
theorem test_strobe : seen (exec .strobe (st 12 0 0 7 .hours)) codes = some [0x7, 0x6] := by decide
theorem test_bank_switch_codes :
    seen (exec (.bankSwitch .minutes .hours) (st 12 0 0 7 .hours)) codes = some [0xB, 0xC] := by decide
theorem test_bank_switch_lines :
    seen (exec (.bankSwitch .hours .seconds) (st 12 0 0 7 .hours)) pins = some (false, true, false, 0b110) := by decide
theorem test_disp_step_minutes :
    seen (exec .dispStep (st 7 45 9 7 .seconds)) (fun t => (t.cursor.toNat, t.transient.pattern, (codes t).drop 48)) =
      some (1, some 0x2020#16, [0x7, 0x6, 0x9, 0xA]) := by decide
theorem test_disp_step_hours :
    seen (exec .dispStep (st 7 45 9 7 .minutes)) (fun t => (t.cursor.toNat, t.transient.pattern, (codes t).drop 48)) =
      some (2, some 0x0080#16, [0x7, 0x6, 0xB, 0xC]) := by decide

/-! ### Control Loop (sections 2.8, 2.9; programs P1, P3) -/

theorem test_sec_poll_window :
    [0x0000, 0x7FFF, 0x8000, 0x80C3, 0x80FF, 0x8100, 0xFFFF].map (tickHit (demo .eq) <| smp · 0 7) =
      [false, false, true, true, true, false, false] := by decide
theorem test_sec_poll_tick :
    seen (exec (.secPoll (smp 0x80C3 0 7)) (st 12 0 59 7 .hours)) (fun t => (clock t, codes t)) =
      some ([12, 1, 0, 7, 2], [0x1]) := by decide
theorem test_pass_p1 :
    seen (exec (.pass (smp 0x8000 0 0b111)) (st 12 59 59 7 .hours)) (fun t => (clock t, pins t, codes t)) =
      some ([1, 0, 0, 7, 0], (true, true, false, 0b110),
        hexDigits 0x124524524524524524524524524524524524524524524534576D8 53) := by decide
theorem test_pass_p3 :
    seen (exec (.pass (smp 0x80FF 0x40 0b111)) (st 11 59 59 0b110 .minutes)) (fun t => (clock t, pins t, t.events.length)) =
      some ([12, 0, 1, 7, 2], (false, true, false, 0b011), 53) := by decide
/-- P1's pin-change trace: SEC_CLR, 15 clock pulses, then DATA=1, CLK=0, CLK=1, STB=1, STB=0, BANK0=0. -/
theorem test_pin_change_trace_p1 :
    seen (exec (.pass (smp 0x8000 0 0b111)) (st 12 59 59 7 .hours))
        (fun t => (pinChanges Outputs.reset t.events).map fun e => e.code.toNat) =
      some (hexDigits 0x1454545454545454545454545454545 31 ++ [0x3, 0x4, 0x5, 0x7, 0x6, 0x8]) := by decide

/-! ### Reset, refusals (sections 2.10, 2.11) -/

theorem test_reset_from_anywhere :
    seen (exec .reset { st 7 45 9 0b010 .minutes with
        out := { srData := true, srClk := false, srStrobe := true, bankN := 0b101#3 } }) (fun t => (clock t, pins t, codes t)) =
      some ([12, 0, 0, 7, 2], (false, true, false, 7), []) := by decide
theorem test_reset_abandons_pass :
    seen (step { st 12 59 59 7 .hours with stimulus := [.env { rst := some 3, inp := smp 0x8000 0 7 }] })
        (fun t => (clock t, pins t, codes t)) =
      some ([12, 0, 0, 7, 2], (false, true, false, 7), [0x1, 0x2, 0x4]) := by decide
theorem test_refuses_ill_formed_states :
    [st 12 0 60 7 .hours, st 12 63 0 7 .hours, st 0 0 0 7 .hours, st 13 0 0 7 .hours,
      { st 12 0 0 7 .hours with cursor := 0b11#2 }].map (fun s => why (exec (.pass (smp 0 0 7)) s)) =
      List.replicate 5 (some .illFormedState) := by decide
theorem test_refuses_threshold_zero :
    why (exec (.pass (smp 0 0 7)) { st 12 0 0 7 .hours with params := { demo .eq with secThreshold := 0#8 } }) =
      some .illegalParameter := by decide
theorem test_reserved_is_refused : why (exec .reserved (st 12 0 0 7 .hours)) = some .reservedCode := by decide

/-! ### Stimulus programs (rule R85) -/

theorem test_stimulus_program_p7 :
    assemble (demo .eq) [.reset, .pass (smp 0x8000 0 7), .pass (smp 0x0040 0 7), .passTimes 2 (smp 0x80A0 0 7)] =
      [.op 0x0, .op 0x40000071, .op 0x00200071, .op 0x40500071, .op 0x40500071] := by decide

/-! ### Witnesses: for each statement with hypotheses, a state and operands that meet them all, each clause at
boundary values. `witness_X` is for `Obligations.X`. -/

/-- A ready state one second before 1:00:00, all buttons recorded pressed. -/
def late : State := st 12 59 59 0b000 .minutes

/-- A ready state at a pass boundary: only the bank the cursor names is enabled. -/
def lit1 : State := { st 11 59 59 0b111 .minutes with out := { Outputs.reset with bankN := 0b101#3 } }

/-- A boundary state with a pass, a reset in a pass and the word of a PASS to come. -/
def queued : State :=
  { lit1 with stimulus := [.env { rst := none, inp := smp 0x8000 0x40 7 }, .env { rst := some 1, inp := smp 0 0 7 },
      .op 0x40000071, .op 0x0] }

/-- The state with one stimulus to come. -/
def with1 (x : Stimulus) : State := { late with stimulus := [x] }

/-- The state with SEC_THRESHOLD = 0. -/
def zeroThreshold : State := { late with params := { demo .eq with secThreshold := 0#8 } }

theorem witness_DecodeInvertsEncode :
    ∀ i ∈ [Instr.reset, .pass (smp 0xFFFF 0xFF 7), .secPoll (smp 0 0 0), .gateCheck (smp 0xFFFF 0xFF 7),
      .dbPass (smp 0xFFFF 0xFF 7), .edge .hours (smp 0xFFFF 0xFF 7), .incSec, .incMin, .incHour, .dispStep,
      .encode 59#6, .shiftBit true, .serialize 0x7FFF#16, .strobe, .bankSwitch .hours .minutes, .reserved],
      i.wellFormed (demo .eq) = true := by decide
theorem witness_EncodeInvertsDecode : decode (demo .eq) 0x8E = .ok (.bankSwitch .hours .seconds) := by rfl
theorem witness_WrittenWordsDecode : (demo .eq).secW = 16 ∧ (demo .eq).dbW = 8 := by decide
theorem witness_SampleWordLayout :
    (smp 0xFFFF 0xFF 7).fits (demo .eq) = true ∧ (smp 0 0 0).fits (demo .ge) = true ∧
      2 < 3 ∧ 7 < (demo .eq).dbW ∧ 15 < (demo .eq).secW ∧ (demo .eq).secW = 16 ∧ (demo .eq).dbW = 8 := by decide
/-- The first event is kept and changes sr_data; the second is SEC_CLR; the third changes no level. -/
theorem witness_PinChangeTraceKeepsLinesAndDevices :
    (pinChanges Outputs.reset [.data true, .secClr, .clk true])[0]? = some (.data true) ∧
      Event.data true ≠ .secClr ∧ pinChanges Outputs.reset [.data true, .secClr, .clk true] = [.data true, .secClr] := by
  decide
/-- A word of PASS, and one with a bit above RESET's operand. -/
theorem witness_StepRunsDecodedOperation :
    (with1 (.op 0x40000071)).stimulus = [.op 0x40000071] ∧
      decode (with1 (.op 0x40000071)).params 0x40000071 = .ok (.pass (smp 0x8000 0 7)) ∧
      (with1 (.op 0x10)).stimulus = [.op 0x10] ∧ decode (with1 (.op 0x10)).params 0x10 = .error .excessBits :=
  ⟨rfl, rfl, rfl, rfl⟩
theorem witness_StepRunsPassOrReset :
    (with1 (.env { rst := none, inp := smp 0 0 7 })).stimulus = [.env { rst := none, inp := smp 0 0 7 }] ∧
      (with1 (.env { rst := some 0, inp := smp 0 0 7 })).stimulus = [.env { rst := some 0, inp := smp 0 0 7 }] :=
  ⟨rfl, rfl⟩
theorem witness_StepDrawsWhenQueueIsEmpty : late.stimulus = [] ∧ State.reset.stimulus = [] := ⟨rfl, rfl⟩

theorem witness_IncHourWrapsTwelveToOne :
    Ready (st 12 34 56 7 .hours) ∧ Ready (st 11 0 0 7 .hours) ∧ Ready (st 1 0 0 7 .hours) ∧
      legalParams (demo .eq) = true ∧ (st 0 0 0 7 .hours).time.hour.toNat = 0 ∧
      12 < (st 13 0 0 7 .hours).time.hour.toNat ∧ 12 < (st 15 0 0 7 .hours).time.hour.toNat := by decide
theorem witness_IncMinCascadesIntoHours :
    Ready (st 12 59 30 7 .hours) ∧ (st 12 59 30 7 .hours).time.minute.toNat = 59 ∧
      Ready (st 12 58 59 7 .hours) ∧ (st 12 58 59 7 .hours).time.minute.toNat ≠ 59 ∧
      legalParams (st 12 60 0 7 .hours).params = true ∧ 59 < (st 12 60 0 7 .hours).time.minute.toNat := by decide
theorem witness_IncSecCascadesIntoMinutes :
    Ready late ∧ late.time.second.toNat = 59 ∧ late.time.minute.toNat = 59 ∧
      Ready (st 12 58 59 7 .hours) ∧ (st 12 58 59 7 .hours).time.second.toNat = 59 ∧
      (st 12 58 59 7 .hours).time.minute.toNat ≠ 59 ∧
      Ready (st 12 59 58 7 .hours) ∧ (st 12 59 58 7 .hours).time.second.toNat ≠ 59 ∧
      legalParams (st 12 0 60 7 .hours).params = true ∧ 59 < (st 12 0 60 7 .hours).time.second.toNat := by decide
theorem witness_OneCodePathForTickAndButtons :
    Ready (st 12 58 59 0 .hours) ∧ (∀ i, line (st 12 58 59 0 .hours).prev i = false) ∧
      (∀ i, line (smp 0x8000 0 7).btnN i = true) ∧ tickHit (st 12 58 59 0 .hours).params (smp 0x8000 0 7) = true ∧
      (st 12 58 59 0 .hours).time.second.toNat = 59 ∧ (st 12 58 59 0 .hours).time.minute.toNat ≠ 59 := by
  refine ⟨by decide, ?_, ?_, by decide⟩ <;> intro i <;> cases i <;> decide
theorem witness_IncrementsAddModulo43200 :
    Ready late ∧ (st 12 0 0 7 .hours).time.elapsed = 0 ∧ legalTime (st 12 0 0 7 .hours).time = true ∧
      (st 11 59 59 7 .hours).time.elapsed = 43199 ∧ legalTime (st 11 59 59 7 .hours).time = true := by decide
theorem witness_IncrementsCommute : Ready late := by decide
theorem witness_TimeIsWrittenByIncrementsOnly :
    ∃ t, exec (.edge .hours (smp 0 0 7)) late = .next t ∧ t.time ≠ late.time := ⟨_, rfl, by decide⟩

theorem witness_GateCheckComparesCount :
    Ready late ∧ late.params.gateCmp = .eq ∧
      Ready { late with params := demo .ge } ∧ (demo .ge).gateCmp = .ge := by decide
/-- The four rows of rule R79's table. -/
theorem witness_EdgeFollowsDecodeTable :
    Ready late ∧ Ready lit1 ∧ line late.prev .minutes = false ∧ line lit1.prev .minutes = true ∧
      line (smp 0 0 0b101).btnN .minutes = false ∧ line (smp 0 0 0b111).btnN .minutes = true := by decide
theorem witness_DbPassRunsThreeEdges : Ready late := by decide
theorem witness_DbPassAddsEachReleaseOnce : Ready late := by decide
theorem witness_UngatedPassIgnoresButtons : Ready late ∧ gateHit late.params (smp 0x8000 0x41 7) = false := by decide
/-- The same count (0 and 256 ticks) and another (1 and 255 ticks). -/
theorem witness_EqGateHoldsForOneCounterTick :
    (demo .eq).gateCmp = .eq ∧ gateHit (demo .eq) (smp 0 0x40 7) = true ∧
      (smp 0 0x40 7).dbCount = debounceAfter (demo .eq) 0x40 0 ∧
      (smp 0 0x41 7).dbCount = debounceAfter (demo .eq) 0x40 1 ∧
      (smp 0 0x3F 7).dbCount = debounceAfter (demo .eq) 0x40 255 ∧
      (smp 0 0x40 7).dbCount = debounceAfter (demo .eq) 0x40 256 := by decide
theorem witness_HeldPressFiresOnceOnRelease :
    Ready lit1 ∧ (∀ j, j ≠ Quantity.minutes → line lit1.prev j = true) ∧
      (∀ inp ∈ [smp 0 0x40 0b101, smp 0 0x40 0b101], gateHit lit1.params inp = true ∧
        tickHit lit1.params inp = false ∧ line inp.btnN .minutes = false ∧
        ∀ j, j ≠ Quantity.minutes → line inp.btnN j = true) ∧
      gateHit lit1.params (smp 0 0x40 7) = true ∧ tickHit lit1.params (smp 0 0x40 7) = false ∧
      (smp 0 0x40 7).btnN = 0b111#3 := by
  refine ⟨by decide, ?_, ?_, by decide⟩
  · intro j; cases j <;> decide
  · intro inp h
    have : inp = smp 0 0x40 0b101 := by simpa using h
    subst this
    refine ⟨by decide, by decide, by decide, ?_⟩
    intro j; cases j <;> decide
theorem witness_BounceFiresTwice :
    Ready lit1 ∧ lit1.prev = 0b111#3 ∧
      (∀ inp ∈ [smp 0 0x40 0b011, smp 0 0x40 7, smp 0 0x40 0b011, smp 0 0x40 7],
        gateHit lit1.params inp = true ∧ tickHit lit1.params inp = false) ∧
      [smp 0 0x40 0b011, smp 0 0x40 7, smp 0 0x40 0b011, smp 0 0x40 7].map (fun inp => inp.btnN) =
        [setLine 0b111#3 .hours false, 0b111#3, setLine 0b111#3 .hours false, 0b111#3] := by decide
theorem witness_ButtonsShareNoState :
    Ready late ∧ Ready (st 3 15 59 0b101 .hours) ∧ line late.prev .minutes = line (st 3 15 59 0b101 .hours).prev .minutes ∧
      line (smp 0 0 0b111).btnN .minutes = line (smp 0x8000 0 0b010).btnN .minutes := by decide

theorem witness_RecordedLevelsAreWrittenByEdgeOnly :
    (∃ t, exec (.edge .hours (smp 0 0 7)) late = .next t ∧ line t.prev .hours ≠ line late.prev .hours) ∧
      (∃ t, exec (.pass (smp 0 0x40 7)) late = .next t ∧ line t.prev .seconds ≠ line late.prev .seconds) ∧
      ∃ t, exec .reset late = .next t := ⟨⟨_, rfl, by decide⟩, ⟨_, rfl, by decide⟩, ⟨_, rfl⟩⟩

theorem witness_CursorIsWrittenByDisplayStepOnly :
    Ready late ∧ (∃ t, exec .dispStep late = .next t ∧ t.cursor ≠ late.cursor) ∧ ∃ t, exec .reset late = .next t :=
  ⟨by decide, ⟨_, rfl, by decide⟩, ⟨_, rfl⟩⟩
theorem witness_CursorCycles :
    Ready (st 12 0 0 7 .seconds) ∧ (st 12 0 0 7 .seconds).cursor = 0b00#2 ∧
      Ready (st 12 0 0 7 .minutes) ∧ (st 12 0 0 7 .minutes).cursor = 0b01#2 ∧
      Ready (st 12 0 0 7 .hours) ∧ (st 12 0 0 7 .hours).cursor = 0b10#2 ∧
      legalParams { late with cursor := 0b11#2 }.params = true := by decide
theorem witness_EncodeSetsDigitBits :
    Ready late ∧ (0#6).toNat ≤ 59 ∧ (9#6).toNat ≤ 59 ∧ (10#6).toNat ≤ 59 ∧ (59#6).toNat ≤ 59 ∧ 15 < 16 := by decide
theorem witness_EncoderIsInjective :
    (encodePattern 59).getLsbD 9 = true ∧ (encodePattern 59).getLsbD 14 = true ∧
      (encodePattern 10).getLsbD 10 = true ∧ encodePattern 9 = encodePattern 9 := by decide
theorem witness_ShiftBitEmitsDataThenPulse : Ready late := by decide
theorem witness_SerializeSendsMsbFirst : Ready late ∧ (0x7FFF#16).getLsbD 15 = false := by decide
theorem witness_StrobePulsesHighThenLow : Ready late := by decide
theorem witness_BankSwitchDisablesFirst : Ready lit1 ∧ OnlyBank lit1.out .minutes := by
  refine ⟨by decide, ?_⟩
  intro r; cases r <;> decide
theorem witness_BankSwitchRunsOnAnyPair : Ready late := by decide
theorem witness_DispStepRunsItsFourParts : Ready late ∧ late.cursor = Quantity.code .minutes := by decide
theorem witness_DisplayEventsAreOrdered : Ready late ∧ late.events = [] := by decide

/-- The ends of the window 0x8000..0x80FF, and the counts beside them. -/
theorem witness_SecPollTicksOnHighByte :
    zeroThreshold.params.secThreshold = 0#8 ∧ Ready late ∧
      (∀ c ∈ [0x8000, 0x80FF], c % 2 ^ late.params.secW / 2 ^ (late.params.secW - 8) = late.params.secThreshold.toNat) ∧
      (∀ c ∈ [0x7FFF, 0x8100], c % 2 ^ late.params.secW / 2 ^ (late.params.secW - 8) ≠ late.params.secThreshold.toNat) := by
  decide
/-- Rule R78's four rows. -/
theorem witness_PassRunsPhasesInOrder :
    Ready late ∧ (List.map (fun inp => (tickHit late.params inp, gateHit late.params inp))
      [smp 0x7FFF 0x41 7, smp 0x8100 0x40 7, smp 0x8000 0x3F 7, smp 0x80FF 0x40 7] =
        [(false, false), (false, true), (true, false), (true, true)]) := by decide
theorem witness_PassAddsTickAndReleases : Ready late := by decide
theorem witness_PassLatchesUpdatedTime : Ready late := by decide
theorem witness_PassHasTwoOutcomes :
    Ready late ∧ legalParams zeroThreshold.params = false ∧
      legalParams { demo .eq with secW := 7 } = false ∧
      legalParams (st 13 0 0 7 .hours).params = true ∧ wellFormed (st 13 0 0 7 .hours) = false ∧
      step { st 13 0 0 7 .hours with stimulus := [.op 0x1] } = .refused .illFormedState := by
  refine ⟨by decide, by decide, by decide, by decide, by decide, by rfl⟩
theorem witness_ReservedAndIllFormedAreRefused :
    Instr.incSec ≠ .reset ∧ 59 < (st 12 0 60 7 .hours).time.second.toNat ∧
      59 < (st 12 60 0 7 .hours).time.minute.toNat ∧ (st 0 0 0 7 .hours).time.hour.toNat = 0 ∧
      12 < (st 13 0 0 7 .hours).time.hour.toNat ∧ { late with cursor := 0b11#2 }.cursor = 0b11#2 ∧
      zeroThreshold.params.secThreshold = 0#8 ∧ { late with params := { demo .eq with secW := 7 } }.params.secW < 8 ∧
      { late with params := { demo .eq with dbW := 0, dbThreshold := 0#0 } }.params.dbW = 0 ∧
      59 < (60#6).toNat ∧ (0x8000#16).getLsbD 15 = true ∧
      2 ^ operandBits (demo .eq) (0x16 % 16) ≤ 0x16 / 16 ∧
      2 ^ operandBits (demo .eq) (0x80000001 % 16) ≤ 0x80000001 / 16 ∧
      0x7FFFFFF < 2 ^ sampleWidth (demo .eq) := by decide
theorem witness_PollWindowCatchesEveryCrossing :
    legalParams (demo .eq) = true ∧
      (∀ m, 0x7F01 + 255 * m ≤ 0x7F01 + 255 * (m + 1) ∧
        0x7F01 + 255 * (m + 1) < 0x7F01 + 255 * m + windowLength (demo .eq)) ∧
      0x7F01 + 255 * 0 < windowStart (demo .eq) ∧ windowStart (demo .eq) ≤ 0x7F01 + 255 * 1 := by
  have h : windowLength (demo .eq) = 256 := by decide
  refine ⟨by decide, fun m => ?_, by decide, by decide⟩
  rw [h]
  omega
/-- The earliest and the latest passes the statement speaks of. -/
theorem witness_NoDoubleFireAfterClear :
    Ready late ∧ tickHit late.params (smp 0x80FF 0 7) = true ∧
      ∀ x ∈ [smp 0 0 7, smp 0x7FFF 0x40 7], ∃ ticks, ticks < windowStart late.params ∧
        x.secCount = counterAfter late.params (smp 0x80FF 0 7).secCount ticks true := by
  refine ⟨by decide, by decide, fun x h => ?_⟩
  rcases List.mem_pair.1 h with rfl | rfl
  · exact ⟨0, by decide, by decide⟩
  · exact ⟨0x7FFF, by decide, by decide⟩

theorem witness_ResetGivesTheSameState :
    (∃ t, exec .reset late = .next t) ∧ (∃ t, exec .reset (st 13 60 60 0 .seconds) = .next t) := ⟨⟨_, rfl⟩, ⟨_, rfl⟩⟩
/-- Cut after the first event, after the last and beyond it. -/
theorem witness_AbandonedPassLeavesResetState :
    ∀ k ∈ [0, 51, 99], Ready (with1 (.env { rst := some (k + 1), inp := smp 0 0 7 })) ∧
      (with1 (.env { rst := some (k + 1), inp := smp 0 0 7 })).stimulus =
        [.env { rst := some (k + 1), inp := smp 0 0 7 }] := by decide

theorem queued_boundary : Boundary queued := by
  refine ⟨by decide, Or.inr ⟨.minutes, by decide, ?_⟩, by decide, by decide, by decide, by decide⟩
  intro r; cases r <;> decide
theorem witness_StepKeepsWellFormed : wellFormed queued = true ∧ ∃ t, step queued = .next t := ⟨by decide, ⟨_, rfl⟩⟩
theorem witness_StepKeepsBoundary : Boundary queued ∧ ∃ t, step queued = .next t := ⟨queued_boundary, ⟨_, rfl⟩⟩
theorem witness_RunsAreNeverRefused : legalParams queued.params = true ∧ Boundary queued := ⟨by decide, queued_boundary⟩
theorem witness_RegistersHoldLastDrivenLevel :
    (∃ t, exec (.pass (smp 0 0 7)) lit1 = .next t) ∧ (∃ t, exec .strobe lit1 = .next t) := ⟨⟨_, rfl⟩, ⟨_, rfl⟩⟩
/-- Before the first pass, and after one. -/
theorem witness_NeverTwoBanksInAPass :
    (Ready late ∧ BanksAtBoundary late) ∧ Ready lit1 ∧ BanksAtBoundary lit1 := by
  refine ⟨⟨by decide, Or.inl ?_⟩, by decide, queued_boundary.banks⟩
  intro r; cases r <;> decide
theorem witness_NewBankShowsItsOwnPattern :
    (Ready late ∧ BanksAtBoundary late) ∧ Ready lit1 ∧ BanksAtBoundary lit1 := witness_NeverTwoBanksInAPass
theorem witness_PreviousBankShowsNewPatternBriefly :
    Ready lit1 ∧ lit1.cursor = Quantity.code .minutes ∧ OnlyBank lit1.out .minutes := by
  refine ⟨by decide, by decide, ?_⟩
  intro r; cases r <;> decide
theorem witness_PassesFollowOneAnother : Ready late := by decide
theorem witness_PassesRotateFromReset :
    Ready late ∧ late.cursor = Quantity.code .minutes ∧ legalParams (demo .eq) = true ∧ [smp 0 0 7] ≠ [] := by decide
theorem witness_TickPassesCountSeconds (n : Nat) :
    Ready late ∧ legalParams (demo .eq) = true ∧ (List.replicate n (smp 0x8000 0 7)).length = n ∧
      ∀ inp ∈ List.replicate n (smp 0x8000 0 7), tickHit (demo .eq) inp = true ∧ gateHit (demo .eq) inp = false := by
  refine ⟨by decide, by decide, List.length_replicate, fun inp h => ?_⟩
  rw [List.eq_of_mem_replicate h]
  decide

/-- Counts wider than their ports are cut to the ports' bits and leave the other fields alone (log entry 20). -/
theorem test_wide_counts_are_cut :
    packSample (demo .eq) (smp 0x18000 0x140 7) = packSample (demo .eq) (smp 0x8000 0x40 7) ∧
      unpackSample (demo .eq) (packSample (demo .eq) (smp 0x18000 0x140 7)) = smp 0x8000 0x40 7 := by decide

end Sys2Proof.Tests
end

/-! PROOFS of the family 10_state.md: which operations write the time (rule R24) and the cursor (rule R26). -/

namespace Sys2Proof.StateWrites

open Sys2Proof.Machine

/-! ### What the sub-operations do to the time and to the cursor -/

@[simp] theorem gateCheck_time (inp : Sample) (s : State) : (gateCheck inp s).time = s.time := rfl
@[simp] theorem edge_time (i : Quantity) (inp : Sample) (s : State) :
    (edge i inp s).time = if fires s.prev inp i = true then action s.time i else s.time := by rw [edge_eq]
@[simp] theorem dbPass_time (inp : Sample) (s : State) :
    (dbPass inp s).time = timeAfterButtons s.time s.prev inp := by rw [dbPass_eq]
@[simp] theorem secPoll_time (inp : Sample) (s : State) :
    (secPoll inp s).time = timeAfterPoll s.time (tickHit s.params inp) := by rw [secPoll_eq]
@[simp] theorem dispStep_time (q : Quantity) (s : State) : (dispStep q s).time = s.time := by rw [dispStep_eq]

@[simp] theorem gateCheck_cursor (inp : Sample) (s : State) : (gateCheck inp s).cursor = s.cursor := rfl
@[simp] theorem edge_cursor (i : Quantity) (inp : Sample) (s : State) : (edge i inp s).cursor = s.cursor := by
  rw [edge_eq]
@[simp] theorem dbPass_cursor (inp : Sample) (s : State) : (dbPass inp s).cursor = s.cursor := by rw [dbPass_eq]
@[simp] theorem secPoll_cursor (inp : Sample) (s : State) : (secPoll inp s).cursor = s.cursor := by
  rw [secPoll_eq]
@[simp] theorem dispStep_cursor (q : Quantity) (s : State) :
    (dispStep q s).cursor = (nextQuantity q).code := by rw [dispStep_eq]

/-! ### The increments an operation runs (rule R24) -/

/-- The increment a seconds poll runs: the second's, on a tick (rule R170). -/
def pollIncrements (tick : Bool) : List Quantity := if tick = true then [.seconds] else []

/-- The increments a debounce pass runs: those of the buttons that fire, in the order 0, 1, 2 (rule R152). -/
def firedButtons (prev : Lines3) (inp : Sample) : List Quantity :=
  [.seconds, .minutes, .hours].filter (fires prev inp)

/-- The increments an operation runs from s, in order; `meaningAt_time` ties it to the model. -/
def incrementsRun (i : Instr) (s : State) : List Quantity :=
  match i with
  | .incSec => [.seconds]
  | .incMin => [.minutes]
  | .incHour => [.hours]
  | .secPoll inp => pollIncrements (tickHit s.params inp)
  | .edge j inp => [j].filter (fires s.prev inp)
  | .dbPass inp => firedButtons s.prev inp
  | .pass inp =>
    pollIncrements (tickHit s.params inp) ++ if gateHit s.params inp = true then firedButtons s.prev inp else []
  | _ => []

theorem timeAfterPoll_eq_foldl (t : Time) (tick : Bool) :
    timeAfterPoll t tick = (pollIncrements tick).foldl action t := by
  cases tick <;> rfl

theorem timeAfterButtons_eq_foldl (t : Time) (prev : Lines3) (inp : Sample) :
    timeAfterButtons t prev inp = (firedButtons prev inp).foldl action t := by
  rw [firedButtons, List.foldl_filter]
  rfl

theorem timeAfterPolls_eq_foldl (s : State) (inp : Sample) :
    timeAfterPolls s inp = (incrementsRun (.pass inp) s).foldl action s.time := by
  simp only [timeAfterPolls, incrementsRun, List.foldl_append, ← timeAfterPoll_eq_foldl]
  split
  · exact timeAfterButtons_eq_foldl _ _ _
  · rfl

/-- The time an operation leaves is the one its increments leave, run in order. -/
theorem meaningAt_time (i : Instr) (q : Quantity) (s : State) :
    (meaningAt i q s).time = (incrementsRun i s).foldl action s.time := by
  cases i with
  | secPoll inp => exact (secPoll_time inp s).trans (timeAfterPoll_eq_foldl _ _)
  | edge j inp =>
    rw [incrementsRun, List.foldl_filter]
    exact edge_time j inp s
  | dbPass inp => exact (dbPass_time inp s).trans (timeAfterButtons_eq_foldl _ _ _)
  | pass inp => exact (pass_time inp q s).trans (timeAfterPolls_eq_foldl s inp)
  | _ => simp [meaningAt, incrementsRun, action]

theorem length_pollIncrements_le (tick : Bool) : (pollIncrements tick).length ≤ 1 := by
  cases tick <;> decide

theorem length_firedButtons_le (prev : Lines3) (inp : Sample) : (firedButtons prev inp).length ≤ 3 :=
  List.length_filter_le _ _

/-- A pass that ticks and in which every button fires runs the most increments, four. -/
theorem length_incrementsRun_le (i : Instr) (s : State) : (incrementsRun i s).length ≤ 4 := by
  cases i with
  | secPoll inp => exact (length_pollIncrements_le _).trans (by decide)
  | edge j inp => exact (List.length_filter_le _ [j]).trans (by simp)
  | dbPass inp => exact (length_firedButtons_le _ _).trans (by decide)
  | pass inp =>
    have hpoll := length_pollIncrements_le (tickHit s.params inp)
    have hbuttons := length_firedButtons_le s.prev inp
    rw [incrementsRun, List.length_append]
    split
    · omega
    · simp only [List.length_nil]
      omega
  | _ => simp [incrementsRun]

/-- An operation that runs an increment is an increment, the seconds poll, the edge detector, the debounce pass or
the pass. -/
theorem kind_of_incrementsRun_ne_nil (i : Instr) (s : State) (h : incrementsRun i s ≠ []) :
    (∃ q, i = incrementOf q) ∨
      ∃ inp, i = .secPoll inp ∨ i = .dbPass inp ∨ i = .pass inp ∨ ∃ j, i = .edge j inp := by
  cases i with
  | incSec => exact .inl ⟨.seconds, rfl⟩
  | incMin => exact .inl ⟨.minutes, rfl⟩
  | incHour => exact .inl ⟨.hours, rfl⟩
  | secPoll inp => exact .inr ⟨inp, .inl rfl⟩
  | dbPass inp => exact .inr ⟨inp, .inr (.inl rfl)⟩
  | pass inp => exact .inr ⟨inp, .inr (.inr (.inl rfl))⟩
  | edge j inp => exact .inr ⟨inp, .inr (.inr (.inr ⟨j, rfl⟩))⟩
  | _ => exact absurd rfl h

/-- The time after any operation but RESET that answers: its increments, run in order. -/
theorem exec_next_time (i : Instr) (s t : State) (hr : i ≠ .reset) (h : exec i s = .next t) :
    t.time = (incrementsRun i s).foldl action s.time := by
  rcases exec_next i s t h with ⟨hreset, _⟩ | ⟨_, _, _, _, q, _, rfl⟩
  · exact absurd hreset hr
  · exact meaningAt_time i q s

/-- Settles O17: the time is a fold of the increments the operation runs, and an operation that runs none leaves
it alone. -/
theorem timeIsWrittenByIncrementsOnly : Obligations.TimeIsWrittenByIncrementsOnly := by
  intro i s t hr h
  have htime := exec_next_time i s t hr h
  refine ⟨⟨incrementsRun i s, length_incrementsRun_le i s, htime⟩, fun hne => ?_⟩
  refine kind_of_incrementsRun_ne_nil i s fun hnil => hne ?_
  rw [htime, hnil, List.foldl_nil]

/-! ### The cursor (rule R26) -/

/-- The cursor's successor is another quantity, so another code (rules R74, R120). -/
theorem code_nextQuantity_ne (q : Quantity) : (nextQuantity q).code ≠ q.code := by
  cases q <;> decide

/-- Every operation but the display step and the pass leaves the cursor as it was. -/
theorem meaningAt_cursor (i : Instr) (q : Quantity) (s : State) (hdisp : i ≠ .dispStep)
    (hpass : ∀ inp, i ≠ .pass inp) : (meaningAt i q s).cursor = s.cursor := by
  cases i with
  | dispStep => exact absurd rfl hdisp
  | pass inp => exact absurd rfl (hpass inp)
  | _ => simp [meaningAt]

theorem kind_of_cursor_ne (i : Instr) (s t : State) (hr : i ≠ .reset) (h : exec i s = .next t)
    (hne : t.cursor ≠ s.cursor) : i = .dispStep ∨ ∃ inp, i = .pass inp := by
  rcases exec_next i s t h with ⟨hreset, _⟩ | ⟨_, _, _, _, q, _, rfl⟩
  · exact absurd hreset hr
  · by_contra hkind
    obtain ⟨hdisp, hpass⟩ := not_or.1 hkind
    exact hne (meaningAt_cursor i q s hdisp (not_exists.1 hpass))

/-- A pass moves the cursor to where the display step by itself would move it, which is elsewhere. -/
theorem pass_moves_cursor_as_dispStep (s : State) (inp : Sample) (h : Ready s) :
    ∃ t u, exec (.pass inp) s = .next t ∧ exec .dispStep s = .next u ∧ t.cursor = u.cursor ∧
      t.cursor ≠ s.cursor := by
  obtain ⟨hp, ht, q, hq⟩ := h.cases
  refine ⟨pass inp q s, dispStep q s, exec_of_ready (.pass inp) s q (by simp) rfl hp ht hq,
    exec_of_ready .dispStep s q (by simp) rfl hp ht hq, ?_, ?_⟩
  · rw [pass_cursor, dispStep_cursor]
  · rw [pass_cursor, hq]
    exact code_nextQuantity_ne q

theorem exec_reset_cursor (s t : State) (h : exec .reset s = .next t) : t.cursor = Quantity.code .hours := by
  rw [exec_reset] at h
  injection h with h
  rw [← h, resetBlock_cursor]

/-- Settles O28, clause by clause. -/
theorem cursorIsWrittenByDisplayStepOnly : Obligations.CursorIsWrittenByDisplayStepOnly :=
  ⟨kind_of_cursor_ne, pass_moves_cursor_as_dispStep, exec_reset_cursor⟩

end Sys2Proof.StateWrites

/-! PROOFS of the family 30_encoding.md: the sample-record word (rule R80), the cursor codes (rule R74), the
release table of EDGE (rule R79), the digit patterns (rule R72) and the rows of a pass (rule R78). -/

namespace Sys2Proof.Encoding

open Sys2Proof.Machine Sys2Proof.StateWrites

/-! ### The sample-record word (rule R80)

The word is a number in a mixed base: each field comes back by division and remainder, whatever the counts, and
the bit places follow from that. -/

theorem packSample_mod_eight (p : Params) (inp : Sample) : packSample p inp % 8 = inp.btnN.toNat := by
  have hbtn := inp.btnN.isLt
  unfold packSample
  omega

theorem packSample_div_eight (p : Params) (inp : Sample) :
    packSample p inp / 8 = inp.secCount % 2 ^ p.secW * 2 ^ p.dbW + inp.dbCount % 2 ^ p.dbW := by
  have hbtn := inp.btnN.isLt
  unfold packSample
  omega

theorem packSample_dbCount (p : Params) (inp : Sample) :
    packSample p inp / 8 % 2 ^ p.dbW = inp.dbCount % 2 ^ p.dbW := by
  rw [packSample_div_eight, Nat.mul_add_mod_self_right, Nat.mod_mod]

theorem packSample_secCount (p : Params) (inp : Sample) :
    packSample p inp / 8 / 2 ^ p.dbW = inp.secCount % 2 ^ p.secW := by
  have hpos : 0 < 2 ^ p.dbW := Nat.two_pow_pos _
  rw [packSample_div_eight, Nat.add_comm, Nat.add_mul_div_right _ _ hpos,
    Nat.div_eq_of_lt (Nat.mod_lt _ hpos), Nat.zero_add]

/-- The word has no bit above its width, since above the two low fields stand SEC_W bits. -/
theorem packSample_lt (p : Params) (inp : Sample) : packSample p inp < 2 ^ sampleWidth p := by
  have hsec : packSample p inp / 8 / 2 ^ p.dbW < 2 ^ p.secW := by
    rw [packSample_secCount]
    exact Nat.mod_lt _ (Nat.two_pow_pos _)
  rw [Nat.div_lt_iff_lt_mul (Nat.two_pow_pos _), Nat.div_lt_iff_lt_mul (by decide)] at hsec
  calc packSample p inp < 2 ^ p.secW * 2 ^ p.dbW * 2 ^ 3 := hsec
    _ = 2 ^ sampleWidth p := by rw [sampleWidth, pow_add, pow_add]

/-- Reading the word back gives the record with its counts cut to the ports' bits (log entry 20). -/
theorem unpackSample_packSample (p : Params) (inp : Sample) :
    unpackSample p (packSample p inp) =
      { inp with secCount := inp.secCount % 2 ^ p.secW, dbCount := inp.dbCount % 2 ^ p.dbW } := by
  have hbtn : BitVec.ofNat 3 (packSample p inp) = inp.btnN :=
    BitVec.eq_of_toNat_eq (packSample_mod_eight p inp)
  rw [unpackSample, packSample_secCount, packSample_dbCount, Nat.mod_mod, hbtn]

theorem testBit_packSample_btnN (p : Params) (inp : Sample) (k : Nat) (hk : k < 3) :
    (packSample p inp).testBit k = inp.btnN.getLsbD k := by
  calc (packSample p inp).testBit k = (packSample p inp % 2 ^ 3).testBit k := by
        rw [Nat.testBit_mod_two_pow, decide_eq_true hk, Bool.true_and]
    _ = inp.btnN.getLsbD k := congrArg (·.testBit k) (packSample_mod_eight p inp)

theorem testBit_packSample_dbCount (p : Params) (inp : Sample) (k : Nat) (hk : k < p.dbW) :
    (packSample p inp).testBit (k + 3) = inp.dbCount.testBit k := by
  have hmod := congrArg (·.testBit k) (packSample_dbCount p inp)
  simpa [Nat.testBit_add, Nat.testBit_mod_two_pow, hk] using hmod

theorem testBit_packSample_secCount (p : Params) (inp : Sample) (k : Nat) (hk : k < p.secW) :
    (packSample p inp).testBit (k + p.dbW + 3) = inp.secCount.testBit k := by
  have hdiv := congrArg (·.testBit k) (packSample_secCount p inp)
  simpa [Nat.testBit_add, Nat.testBit_mod_two_pow, hk] using hdiv

theorem sampleFits_iff (p : Params) (inp : Sample) :
    inp.fits p = true ↔ inp.secCount < 2 ^ p.secW ∧ inp.dbCount < 2 ^ p.dbW := by
  simp [Sample.fits]

theorem unpackSample_packSample_of_fits (p : Params) (inp : Sample) (h : inp.fits p = true) :
    unpackSample p (packSample p inp) = inp := by
  obtain ⟨hsec, hdb⟩ := (sampleFits_iff p inp).1 h
  rw [unpackSample_packSample, Nat.mod_eq_of_lt hsec, Nat.mod_eq_of_lt hdb]

/-- Settles O4, field by field. -/
theorem sampleWordLayout : Obligations.SampleWordLayout := by
  refine ⟨fun p inp hfits => ⟨packSample_lt p inp, testBit_packSample_btnN p inp, testBit_packSample_dbCount p inp,
    testBit_packSample_secCount p inp, unpackSample_packSample_of_fits p inp hfits⟩, fun p hsec hdb => ?_⟩
  rw [sampleWidth, hsec, hdb]

/-! ### The cursor codes (rule R74) -/

theorem code_toNat (q : Quantity) : q.code.toNat = q.index := by
  cases q <;> rfl

/-- A bank's line is the one its code numbers. -/
theorem bankEnabled_eq_code (o : Outputs) (q : Quantity) :
    bankEnabled o q = !o.bankN.getLsbD q.code.toNat := by
  rw [code_toNat, bankEnabled, line]

/-- A button's line is the one its code numbers. -/
theorem sampleBtn_eq_code (inp : Sample) (q : Quantity) :
    sampleBtn inp q = inp.btnN.getLsbD q.code.toNat := by
  rw [code_toNat, sampleBtn, line]

/-- Settles O5: the codes by evaluation, the indices by way of `code_toNat`. -/
theorem cursorCodes : Obligations.CursorCodes :=
  ⟨rfl, rfl, rfl, rfl, fun q => ⟨code_toNat q, Quantity_ofCode_code q⟩,
    fun o inp q => ⟨bankEnabled_eq_code o q, sampleBtn_eq_code inp q⟩⟩

/-! ### Where operations run

A ready state and the quantity its cursor names, kept together, so that a chain of operations carries one premise. -/

/-- The guard opens at s, with the cursor at q; `ready_iff` ties it to the obligations' premise. -/
structure ReadyAt (s : State) (q : Quantity) : Prop where
  params : legalParams s.params = true
  time : legalTime s.time = true
  cursor : s.cursor = q.code

theorem ready_iff (s : State) : Ready s ↔ ∃ q, ReadyAt s q := by
  constructor
  · intro h
    obtain ⟨hp, ht, q, hq⟩ := h.cases
    exact ⟨q, hp, ht, hq⟩
  · rintro ⟨q, hp, ht, hq⟩
    exact ⟨hp, (wellFormed_iff s).2 ⟨ht, q, hq⟩⟩

theorem ReadyAt.exec {s : State} {q : Quantity} (h : ReadyAt s q) (i : Instr) (hr : i ≠ .reset)
    (hi : runnable i = true) : exec i s = .next (meaningAt i q s) :=
  exec_of_ready i s q hr hi h.params h.time h.cursor

/-! ### EDGE (rules R79, R151) -/

theorem fires_iff (prev : Lines3) (inp : Sample) (i : Quantity) :
    fires prev inp i = true ↔ line prev i = false ∧ line inp.btnN i = true := by
  simp [fires, sampleBtn]

theorem edge_prev (i : Quantity) (inp : Sample) (s : State) :
    (edge i inp s).prev = setLine s.prev i (line inp.btnN i) := by rw [edge_eq, sampleBtn]

theorem edge_fire (i : Quantity) (inp : Sample) (s : State) :
    (edge i inp s).transient.fire = setLine s.transient.fire i (fires s.prev inp i) := by rw [edge_eq]

/-- The lines of the other buttons stay as they were. -/
theorem edge_other_lines (i j : Quantity) (inp : Sample) (s : State) (h : j ≠ i) :
    line (edge i inp s).prev j = line s.prev j ∧
      line (edge i inp s).transient.fire j = line s.transient.fire j := by
  rw [edge_prev, edge_fire]
  exact ⟨line_setLine_other _ _ _ _ h, line_setLine_other _ _ _ _ h⟩

theorem edge_frame (i : Quantity) (inp : Sample) (s : State) :
    edge i inp s = { s with
      time := (edge i inp s).time
      prev := (edge i inp s).prev
      transient := { s.transient with fire := (edge i inp s).transient.fire } } := by
  rw [edge_eq]

theorem ReadyAt.exec_incrementOf {s : State} {q : Quantity} (h : ReadyAt s q) (i : Quantity) :
    Machine.exec (incrementOf i) s = .next (setTime s (action s.time i)) := by
  cases i with
  | seconds => exact h.exec .incSec (by simp) rfl
  | minutes => exact h.exec .incMin (by simp) rfl
  | hours => exact h.exec .incHour (by simp) rfl

/-- Settles O19: the time goes by whether the button fires, the lines by `setLine`. -/
theorem edgeFollowsDecodeTable : Obligations.EdgeFollowsDecodeTable := by
  intro s i inp hready
  obtain ⟨q, hq⟩ := (ready_iff s).1 hready
  refine ⟨rfl, edge i inp s, hq.exec (.edge i inp) (by simp) rfl, ?_, ?_, fun hrow => ?_, fun hrow => ?_,
    fun j hj => edge_other_lines i j inp s hj, edge_frame i inp s⟩
  · rw [edge_prev, line_setLine_self]
  · rw [edge_fire, line_setLine_self, fires, sampleBtn]
  · refine ⟨_, hq.exec_incrementOf i, ?_⟩
    rw [edge_time, if_pos ((fires_iff _ _ _).2 hrow), setTime_time]
  · rw [edge_time, if_neg (mt (fires_iff _ _ _).1 hrow)]

/-! ### ENCODE (rules R72, R122) -/

/-- The pattern bit by bit, for any value: the ones bit, and the tens bit of a tens digit that is not 0. -/
theorem encodePattern_getLsbD (v k : Nat) (hk : k < 16) :
    (encodePattern v).getLsbD k = (decide (k = v % 10) || (decide (v / 10 ≠ 0) && decide (k = 9 + v / 10))) := by
  have hbit (n : Nat) : (1#16 <<< n).getLsbD k = decide (k = n) := by
    rw [← BitVec.twoPow_eq, BitVec.getLsbD_twoPow, Bool.eq_iff_iff]
    simp only [Bool.and_eq_true, decide_eq_true_eq]
    omega
  rw [encodePattern, BitVec.getLsbD_or, hbit]
  split
  · next htens => rw [hbit, decide_eq_true htens, Bool.true_and]
  · next htens => rw [BitVec.getLsbD_zero, decide_eq_false htens, Bool.false_and]

/-- Settles O30. -/
theorem encodeSetsDigitBits : Obligations.EncodeSetsDigitBits := by
  intro s v hready hv
  obtain ⟨q, hq⟩ := (ready_iff s).1 hready
  have hrun : runnable (.encode v) = true := decide_eq_true hv
  exact ⟨rfl, encodePattern v.toNat, hq.exec (.encode v) (by simp) hrun, encodePattern_getLsbD v.toNat⟩

/-! ### The phases of a pass (rules R78, R171) -/

theorem ReadyAt.beginPass {s : State} {q : Quantity} (h : ReadyAt s q) : ReadyAt (beginPass s) q :=
  ⟨h.params, h.time, h.cursor⟩

theorem ReadyAt.secPoll {s : State} {q : Quantity} (h : ReadyAt s q) (inp : Sample) :
    ReadyAt (secPoll inp s) q := by
  rw [secPoll_eq]
  exact ⟨h.params, timeAfterPoll_legal _ _ h.time, h.cursor⟩

theorem ReadyAt.gateCheck {s : State} {q : Quantity} (h : ReadyAt s q) (inp : Sample) :
    ReadyAt (gateCheck inp s) q :=
  ⟨h.params, h.time, h.cursor⟩

theorem ReadyAt.dbPass {s : State} {q : Quantity} (h : ReadyAt s q) (inp : Sample) : ReadyAt (dbPass inp s) q := by
  rw [dbPass_eq]
  exact ⟨h.params, timeAfterButtons_legal _ _ _ h.time, h.cursor⟩

theorem gatePhase_of_hit (inp : Sample) (s : State) (h : gateHit s.params inp = true) :
    gatePhase inp s = dbPass inp (gateCheck inp s) := if_pos h

theorem gatePhase_of_no_hit (inp : Sample) (s : State) (h : gateHit s.params inp = false) :
    gatePhase inp s = gateCheck inp s := if_neg (by simp [h])

theorem ReadyAt.gatePhase {s : State} {q : Quantity} (h : ReadyAt s q) (inp : Sample) :
    ReadyAt (gatePhase inp s) q := by
  cases hgate : gateHit s.params inp with
  | true => exact gatePhase_of_hit inp s hgate ▸ (h.gateCheck inp).dbPass inp
  | false => exact gatePhase_of_no_hit inp s hgate ▸ h.gateCheck inp

@[simp] theorem secPoll_params (inp : Sample) (s : State) : (secPoll inp s).params = s.params := by rw [secPoll_eq]

/-- No event of a display step is SEC_CLR (rule R128). -/
theorem secClr_not_mem_displayEvents (old new : Quantity) (p : Pattern) :
    Event.secClr ∉ displayEvents old new p := by
  simp [displayEvents, serializeEvents, shiftBitEvents, strobeEvents, bankSwitchEvents]

theorem pass_events_of_tick (inp : Sample) (q : Quantity) (s : State) (h : tickHit s.params inp = true) :
    (pass inp q s).events.length = 53 ∧ (pass inp q s).events.head? = some .secClr := by
  rw [pass_events, h]
  exact ⟨rfl, rfl⟩

theorem pass_events_of_no_tick (inp : Sample) (q : Quantity) (s : State) (h : tickHit s.params inp = false) :
    (pass inp q s).events.length = 52 ∧ Event.secClr ∉ (pass inp q s).events := by
  rw [pass_events, h]
  exact ⟨rfl, secClr_not_mem_displayEvents _ _ _⟩

/-- Settles O40: the states between the phases are those `pass` composes, each ready at the same quantity. -/
theorem passRunsPhasesInOrder : Obligations.PassRunsPhasesInOrder := by
  intro s inp hready
  obtain ⟨q, hq⟩ := (ready_iff s).1 hready
  have hpoll : ReadyAt (secPoll inp (beginPass s)) q := hq.beginPass.secPoll inp
  have hparams : (secPoll inp (beginPass s)).params = s.params := secPoll_params _ _
  refine ⟨rfl, secPoll inp (beginPass s), gateCheck inp (secPoll inp (beginPass s)),
    gatePhase inp (secPoll inp (beginPass s)), dispStep q (gatePhase inp (secPoll inp (beginPass s))),
    hq.beginPass.exec (.secPoll inp) (by simp) rfl, hpoll.exec (.gateCheck inp) (by simp) rfl, ?_, ?_,
    fun hgate => ?_, fun hgate => ?_, (hpoll.gatePhase inp).exec .dispStep (by simp) rfl,
    hq.exec (.pass inp) (by simp) rfl, pass_events_of_tick inp q s, pass_events_of_no_tick inp q s⟩
  · rw [secPoll_eq]
    rfl
  · rw [← hparams]
    rfl
  · rw [gatePhase_of_hit inp _ (hparams ▸ hgate)]
    exact (hpoll.gateCheck inp).exec (.dbPass inp) (by simp) rfl
  · exact gatePhase_of_no_hit inp _ (hparams ▸ hgate)

end Sys2Proof.Encoding

/-! PROOFS of the family 40_time_model.md: the increments of the Time Model (rules R101 to R103) and the operations
that run them (rules R104, R153). -/

namespace Sys2Proof.TimeModel

open Sys2Proof.Machine Sys2Proof.StateWrites Sys2Proof.Encoding

/-! ### The increments in plain numbers

The model compares and adds machine words; the rules speak of the numbers they stand for. -/

theorem incHour_eq (t : Time) :
    incHour t = { t with hour := if t.hour.toNat = 12 then 1#4 else BitVec.ofNat 4 (t.hour.toNat + 1) } := by
  have htwelve : t.hour = 12#4 ↔ t.hour.toNat = 12 := BitVec.toNat_inj.symm
  simp only [incHour, htwelve, BitVec.ofNat_add, BitVec.ofNat_toNat, BitVec.setWidth_eq]
  split <;> rfl

theorem incMin_of_eq (t : Time) (h : t.minute.toNat = 59) : incMin t = incHour { t with minute := 0#6 } :=
  if_pos (BitVec.eq_of_toNat_eq h)

theorem incMin_of_ne (t : Time) (h : t.minute.toNat ≠ 59) :
    incMin t = { t with minute := BitVec.ofNat 6 (t.minute.toNat + 1) } := by
  have hne : t.minute ≠ 59#6 := mt (congrArg BitVec.toNat) h
  rw [incMin, if_neg hne, BitVec.ofNat_add, BitVec.ofNat_toNat, BitVec.setWidth_eq]

theorem incSec_of_eq (t : Time) (h : t.second.toNat = 59) : incSec t = incMin { t with second := 0#6 } :=
  if_pos (BitVec.eq_of_toNat_eq h)

theorem incSec_of_ne (t : Time) (h : t.second.toNat ≠ 59) :
    incSec t = { t with second := BitVec.ofNat 6 (t.second.toNat + 1) } := by
  have hne : t.second ≠ 59#6 := mt (congrArg BitVec.toNat) h
  rw [incSec, if_neg hne, BitVec.ofNat_add, BitVec.ofNat_toNat, BitVec.setWidth_eq]

/-! ### When an increment answers and when it is refused -/

/-- From a ready state an increment writes the time it computes and nothing else. -/
theorem exec_incrementOf_of_action (s : State) (q : Quantity) (t : Time) (hready : Ready s)
    (ht : action s.time q = t) : exec (incrementOf q) s = .next { s with time := t } := by
  obtain ⟨c, hc⟩ := (ready_iff s).1 hready
  rw [hc.exec_incrementOf q, ht]
  rfl

/-- From a time out of range an increment is refused, whichever quantity it increments (rules R37, R194(b)). -/
theorem exec_incrementOf_of_illegalTime (s : State) (q : Quantity) (hp : legalParams s.params = true)
    (ht : legalTime s.time = false) : exec (incrementOf q) s = .refused .illFormedState := by
  have hill : wellFormed s = false := by rw [wellFormed, ht, Bool.false_and]
  cases q with
  | seconds => exact guarded_illFormed s _ hp hill
  | minutes => exact guarded_illFormed s _ hp hill
  | hours => exact guarded_illFormed s _ hp hill

theorem legalTime_eq_false_iff (t : Time) :
    legalTime t = false ↔
      59 < t.second.toNat ∨ 59 < t.minute.toNat ∨ t.hour.toNat = 0 ∨ 12 < t.hour.toNat := by
  rw [← Bool.not_eq_true, legalTime_iff]
  omega

/-- Settles O11. -/
theorem incHourWrapsTwelveToOne : Obligations.IncHourWrapsTwelveToOne := by
  refine ⟨rfl, fun s hready => ?_, fun s hp hhour => ?_⟩
  · exact exec_incrementOf_of_action s .hours _ hready (incHour_eq s.time)
  · exact exec_incrementOf_of_illegalTime s .hours hp ((legalTime_eq_false_iff _).2 (.inr (.inr hhour)))

/-- Settles O12: the two cases are the increment with and without its carry into the hours. -/
theorem incMinCascadesIntoHours : Obligations.IncMinCascadesIntoHours := by
  refine ⟨rfl, fun s hready => ⟨fun hmin => ?_, fun hmin => ?_⟩, fun s hp hmin => ?_⟩
  · exact exec_incrementOf_of_action s .minutes _ hready ((incMin_of_eq _ hmin).trans (incHour_eq _))
  · exact exec_incrementOf_of_action s .minutes _ hready (incMin_of_ne _ hmin)
  · exact exec_incrementOf_of_illegalTime s .minutes hp ((legalTime_eq_false_iff _).2 (.inr (.inl hmin)))

/-- Settles O13: the three cases are how far the carry goes, to the hours, to the minutes, or nowhere. -/
theorem incSecCascadesIntoMinutes : Obligations.IncSecCascadesIntoMinutes := by
  refine ⟨rfl, fun s hready => ⟨fun hsec hmin => ?_, fun hsec hmin => ?_, fun hsec => ?_⟩, fun s hp hsec => ?_⟩
  · refine exec_incrementOf_of_action s .seconds _ hready ?_
    calc incSec s.time = incMin { s.time with second := 0#6 } := incSec_of_eq _ hsec
      _ = incHour { s.time with second := 0#6, minute := 0#6 } := incMin_of_eq _ hmin
      _ = _ := incHour_eq _
  · exact exec_incrementOf_of_action s .seconds _ hready ((incSec_of_eq _ hsec).trans (incMin_of_ne _ hmin))
  · exact exec_incrementOf_of_action s .seconds _ hready (incSec_of_ne _ hsec)
  · exact exec_incrementOf_of_illegalTime s .seconds hp ((legalTime_eq_false_iff _).2 (.inl hsec))

/-! ### One code path for the tick and the buttons (rules R104, R153) -/

/-- A release runs its button's increment (rule R153). -/
theorem exec_edge_of_release (s : State) (i : Quantity) (inp : Sample) (hready : Ready s)
    (hprev : line s.prev i = false) (hbtn : line inp.btnN i = true) :
    ∃ t, exec (.edge i inp) s = .next t ∧ t.time = action s.time i := by
  obtain ⟨q, hq⟩ := (ready_iff s).1 hready
  refine ⟨edge i inp s, hq.exec (.edge i inp) (by simp) rfl, ?_⟩
  rw [edge_time, if_pos ((fires_iff _ _ _).2 ⟨hprev, hbtn⟩)]

/-- A tick runs the second's increment (rule R170). -/
theorem exec_secPoll_of_tick (s : State) (inp : Sample) (hready : Ready s) (htick : tickHit s.params inp = true) :
    ∃ t, exec (.secPoll inp) s = .next t ∧ t.time = action s.time .seconds := by
  obtain ⟨q, hq⟩ := (ready_iff s).1 hready
  refine ⟨secPoll inp s, hq.exec (.secPoll inp) (by simp) rfl, ?_⟩
  rw [secPoll_time, htick]
  rfl

/-- Below 59 the increment adds one to the minute, and the six bits hold it. -/
theorem incMin_minute_toNat (t : Time) (h : t.minute.toNat < 59) :
    (incMin t).minute.toNat = t.minute.toNat + 1 := by
  rw [incMin_of_ne t h.ne, BitVec.toNat_ofNat]
  exact Nat.mod_eq_of_lt (by omega)

/-- Settles O14: tick, release and increment operation all leave `action` of the same time; at second 59 that is
the minute's increment. -/
theorem oneCodePathForTickAndButtons : Obligations.OneCodePathForTickAndButtons := by
  intro s inp hready
  refine ⟨fun i hprev hbtn => ?_, fun htick => ?_, fun hprev hbtn hsec hmin => ?_⟩
  · obtain ⟨t, ht, htime⟩ := exec_edge_of_release s i inp hready hprev hbtn
    exact ⟨t, _, ht, exec_incrementOf_of_action s i _ hready rfl, htime⟩
  · obtain ⟨t, ht, htime⟩ := exec_secPoll_of_tick s inp hready htick
    exact ⟨t, _, ht, exec_incrementOf_of_action s .seconds _ hready rfl, htime⟩
  · obtain ⟨t, ht, htime⟩ := exec_edge_of_release s .seconds inp hready hprev hbtn
    obtain ⟨_, hlegal, _⟩ := hready.cases
    obtain ⟨_, hmax, _⟩ := (legalTime_iff s.time).1 hlegal
    refine ⟨t, ht, ?_⟩
    rw [htime, action, incSec_of_eq s.time hsec]
    exact incMin_minute_toNat _ (lt_of_le_of_ne hmax hmin)

end Sys2Proof.TimeModel

/-! PROOFS of the family 41_display_driver.md: the cursor's cycle (rule R120) and the operations that drive the
display (rules R124 to R128). -/

namespace Sys2Proof.DisplayDriver

open Sys2Proof.Machine Sys2Proof.StateWrites Sys2Proof.Encoding

/-! ### Emission, framed

SHIFT_BIT, SERIALIZE, STROBE and BANK_SWITCH only emit, so their frames are all this one. -/

/-- Emitting a list that leaves the lines at o: beside the lines, only the event list and the devices move. -/
theorem emitAll_frame (s : State) (es : List Event) (o : Outputs) (ho : outputsAfter s.out es = o) :
    emitAll s es = { s with out := o, events := s.events ++ es, devices := (emitAll s es).devices } := by
  subst ho
  rw [emitAll_eq]

theorem readyAt_emitAll {s : State} {q : Quantity} (h : ReadyAt s q) (es : List Event) :
    ReadyAt (emitAll s es) q := by
  rw [emitAll_eq]
  exact ⟨h.params, h.time, h.cursor⟩

/-! ### SHIFT_BIT and STROBE (rules R124, R126) -/

/-- Settles O32. -/
theorem shiftBitEmitsDataThenPulse : Obligations.ShiftBitEmitsDataThenPulse := by
  intro s b hready
  obtain ⟨q, hq⟩ := (ready_iff s).1 hready
  exact ⟨rfl, emitAll s (shiftBitEvents b), hq.exec (.shiftBit b) (by simp) rfl,
    emitAll_frame s _ _ (outputsAfter_shiftBit s.out b)⟩

/-- Settles O34. -/
theorem strobePulsesHighThenLow : Obligations.StrobePulsesHighThenLow := by
  intro s hready
  obtain ⟨q, hq⟩ := (ready_iff s).1 hready
  exact ⟨rfl, emitAll s strobeEvents, hq.exec .strobe (by simp) rfl,
    emitAll_frame s _ _ (outputsAfter_strobe s.out)⟩

/-! ### SERIALIZE (rule R125) -/

/-- Three events per bit: event 3k + j of the bits sent is event j of bit k. -/
theorem getElem?_shiftBits (bs : List Bool) (k j : Nat) (hj : j < 3) :
    (bs.flatMap shiftBitEvents)[3 * k + j]? = bs[k]?.bind fun b => (shiftBitEvents b)[j]? := by
  induction bs generalizing k with
  | nil => simp
  | cons b bs ih =>
    have hlen : (shiftBitEvents b).length = 3 := rfl
    rw [List.flatMap_cons]
    cases k with
    | zero => simp [List.getElem?_append_left, hlen, hj]
    | succ k =>
      have hidx : 3 * (k + 1) + j - 3 = 3 * k + j := by omega
      rw [List.getElem?_append_right (by omega), hlen, hidx, ih, List.getElem?_cons_succ]

theorem msbFirst_getElem? (k : Nat) (hk : k < 16) : msbFirst[k]? = some (15 - k) := by
  revert k
  decide

/-- The k-th bit SERIALIZE sends is bit 15 - k of the pattern. -/
theorem serializeEvents_getElem? (p : Pattern) (k j : Nat) (hk : k < 16) (hj : j < 3) :
    (serializeEvents p)[3 * k + j]? = (shiftBitEvents (p.getLsbD (15 - k)))[j]? := by
  rw [serializeEvents_eq, getElem?_shiftBits _ k j hj, List.getElem?_map, msbFirst_getElem? k hk]
  rfl

/-- SERIALIZE's operand is in range when bit 15 is clear (rule R83). -/
theorem runnable_serialize (p : Pattern) (h : p.getLsbD 15 = false) : runnable (.serialize p) = true := by
  rw [runnable, patternInRange, h, Bool.not_false]

/-- Settles O33. -/
theorem serializeSendsMsbFirst : Obligations.SerializeSendsMsbFirst := by
  intro s p hready hp
  obtain ⟨q, hq⟩ := (ready_iff s).1 hready
  refine ⟨rfl, emitAll s (serializeEvents p), serializeEvents p,
    hq.exec (.serialize p) (by simp) (runnable_serialize p hp), length_serializeEvents p, fun k hk => ?_,
    emitAll_frame s _ _ (outputsAfter_serialize s.out p)⟩
  have hbit (j : Nat) (hj : j < 3) := serializeEvents_getElem? p k j hk hj
  exact ⟨hbit 0 (by decide), hbit 1 (by decide), hbit 2 (by decide)⟩

/-! ### BANK_SWITCH (rule R127) -/

theorem nextQuantity_ne (q : Quantity) : nextQuantity q ≠ q :=
  fun h => code_nextQuantity_ne q (congrArg Quantity.code h)

/-- A bank event sets its own bank and no other; level 0 enables (rules R29, R76). -/
theorem bankEnabled_driveOutputs_bank (o : Outputs) (q r : Quantity) (b : Bool) :
    bankEnabled (driveOutputs o (.bank q b)) r = if r = q then !b else bankEnabled o r := by
  rw [bankEnabled, driveOutputs, line_setLine, apply_ite (!·), bankEnabled]

/-- Disabling the only enabled bank leaves none. -/
theorem noBank_of_disable (o : Outputs) (q : Quantity) (h : OnlyBank o q) :
    NoBank (driveOutputs o (.bank q true)) := by
  intro r
  rw [bankEnabled_driveOutputs_bank, h r]
  split
  · rfl
  · next hne => exact decide_eq_false hne

/-- Enabling a bank where none is enabled makes it the only one. -/
theorem onlyBank_of_enable (o : Outputs) (q : Quantity) (h : NoBank o) :
    OnlyBank (driveOutputs o (.bank q false)) q := by
  intro r
  rw [bankEnabled_driveOutputs_bank, h r]
  split
  · next heq => exact (decide_eq_true heq).symm
  · next hne => exact (decide_eq_false hne).symm

/-- The lines BANK_SWITCH leaves, one by one: the second event has the last word. -/
theorem line_bankSwitch (o : Outputs) (old new r : Quantity) :
    line (outputsAfter o (bankSwitchEvents old new)).bankN r =
      if r = new then false else if r = old then true else line o.bankN r := by
  rw [outputsAfter_bankSwitch, line_setLine, line_setLine]

/-- Settles O35: the two bank clauses are the two events, one after the other. -/
theorem bankSwitchDisablesFirst : Obligations.BankSwitchDisablesFirst := by
  intro s old hready
  obtain ⟨q, hq⟩ := (ready_iff s).1 hready
  refine ⟨rfl, emitAll s (bankSwitchEvents old (nextQuantity old)),
    hq.exec (.bankSwitch old (nextQuantity old)) (by simp) rfl, ?_, ?_, fun r hold hnew => ?_, fun honly => ?_, ?_⟩
  · rw [emitAll_out, line_bankSwitch, if_neg (nextQuantity_ne old).symm, if_pos rfl]
  · rw [emitAll_out, line_bankSwitch, if_pos rfl]
  · rw [emitAll_out, line_bankSwitch, if_neg hnew, if_neg hold]
  · have hnone : NoBank (driveOutputs s.out (.bank old true)) := noBank_of_disable s.out old honly
    exact ⟨hnone, onlyBank_of_enable _ (nextQuantity old) hnone⟩
  · rw [emitAll_eq, outputsAfter_bankSwitch, devicesAfter_bankSwitch]
    rfl

/-! ### The cursor's cycle (rule R120) -/

theorem code_injective : Function.Injective Quantity.code := by
  intro q r h
  have hof := congrArg Quantity.ofCode h
  rwa [Quantity_ofCode_code, Quantity_ofCode_code, Option.some_inj] at hof

/-- A display step goes to the successor of whichever quantity the cursor names. -/
theorem dispStep_cursor_of_code {s : State} {q : Quantity} (h : ReadyAt s q) (r : Quantity)
    (hr : s.cursor = r.code) : (dispStep q s).cursor = (nextQuantity r).code := by
  rw [dispStep_cursor, code_injective (h.cursor.symm.trans hr)]

/-- Settles O29: the three moves are `nextQuantity` at each quantity, and code 0b11 names none. -/
theorem cursorCycles : Obligations.CursorCycles := by
  refine ⟨fun s hready => ?_, fun s hp hcursor => guarded_illFormed s _ hp ?_⟩
  · obtain ⟨q, hq⟩ := (ready_iff s).1 hready
    exact ⟨dispStep q s, hq.exec .dispStep (by simp) rfl, dispStep_cursor_of_code hq .seconds,
      dispStep_cursor_of_code hq .minutes, dispStep_cursor_of_code hq .hours⟩
  · obtain ⟨_, _, _, hunused, _, _⟩ := cursorCodes
    rw [wellFormed, hcursor, hunused, Option.isSome_none, Bool.and_false]

/-! ### DISP_STEP (rule R128) -/

/-- In a time in range every field is one ENCODE takes (rule R122). -/
theorem field_le (t : Time) (q : Quantity) (h : legalTime t = true) : field t q ≤ 59 := by
  obtain ⟨hsec, hmin, _, hhour⟩ := (legalTime_iff t).1 h
  cases q with
  | seconds => exact hsec
  | minutes => exact hmin
  | hours => exact hhour.trans (by decide)

/-- The pattern of a value ENCODE takes is one SERIALIZE takes. -/
theorem encodePattern_bit_fifteen (v : Nat) (hv : v ≤ 59) : (encodePattern v).getLsbD 15 = false := by
  have hones : 15 ≠ v % 10 := by omega
  have htens : 15 ≠ 9 + v / 10 := by omega
  rw [encodePattern_getLsbD v 15 (by decide), decide_eq_false hones, decide_eq_false htens, Bool.and_false,
    Bool.or_false]

/-- The 52 events are emitted part by part: SERIALIZE's, STROBE's, BANK_SWITCH's. -/
theorem dispStep_eq_parts (old : Quantity) (s : State) :
    dispStep old s =
      emitAll (emitAll (emitAll
        (notePattern (setCursor s (nextQuantity old)) (encodePattern (field s.time (nextQuantity old))))
        (serializeEvents (encodePattern (field s.time (nextQuantity old))))) strobeEvents)
        (bankSwitchEvents old (nextQuantity old)) := by
  rw [dispStep, displayEvents, emitAll_append, emitAll_append]

/-- ENCODE's effect keeps the guard open for the parts that follow. -/
theorem readyAt_notePattern {s : State} {q : Quantity} (h : ReadyAt s q) (p : Pattern) :
    ReadyAt (notePattern s p) q :=
  ⟨h.params, h.time, h.cursor⟩

/-- ENCODE of a field gives the field's own pattern, wherever the cursor is: six bits hold every field in range. -/
theorem exec_encode_field (s : State) (new q : Quantity) (h : ReadyAt s q) :
    exec (.encode (BitVec.ofNat 6 (field s.time new))) s =
      .next (notePattern s (encodePattern (field s.time new))) := by
  have hle : field s.time new ≤ 59 := field_le s.time new h.time
  have hval : (BitVec.ofNat 6 (field s.time new)).toNat = field s.time new := by
    rw [BitVec.toNat_ofNat]
    exact Nat.mod_eq_of_lt (by omega)
  have hrun : runnable (.encode (BitVec.ofNat 6 (field s.time new))) = true :=
    decide_eq_true (hval.le.trans hle)
  rw [h.exec _ (by simp) hrun, meaningAt, hval]

/-- Settles O37: the four parts run one after the other with the cursor already at the successor, and together
they are the display step. -/
theorem dispStepRunsItsFourParts : Obligations.DispStepRunsItsFourParts := by
  intro s old hready hcursor
  obtain ⟨hparams, htime, _⟩ := hready.cases
  have hs : ReadyAt s old := ⟨hparams, htime, hcursor⟩
  have hmoved : ReadyAt (setCursor s (nextQuantity old)) (nextQuantity old) := ⟨hparams, htime, rfl⟩
  have ha := readyAt_notePattern hmoved (encodePattern (field s.time (nextQuantity old)))
  have hb := readyAt_emitAll ha (serializeEvents (encodePattern (field s.time (nextQuantity old))))
  have hc := readyAt_emitAll hb strobeEvents
  have hbit := encodePattern_bit_fifteen _ (field_le s.time (nextQuantity old) htime)
  refine ⟨rfl, _, _, _, dispStep old s, _, exec_encode_field _ (nextQuantity old) _ hmoved, rfl,
    ha.exec (.serialize _) (by simp) (runnable_serialize _ hbit), hb.exec .strobe (by simp) rfl, ?_,
    hs.exec .dispStep (by simp) rfl, dispStep_cursor old s, ?_, dispStep_time old s, ?_⟩
  · rw [dispStep_eq_parts]
    exact hc.exec (.bankSwitch old (nextQuantity old)) (by simp) rfl
  · rw [dispStep_eq, List.length_append, length_displayEvents]
  · rw [dispStep_eq]

end Sys2Proof.DisplayDriver

/-! PROOFS of the family 42_input_debouncer.md: the gate (rule R150), the debounce pass (rule R152) and the pass
that is not gated (rule R154). -/

namespace Sys2Proof.InputDebouncer

open Sys2Proof.Machine Sys2Proof.StateWrites Sys2Proof.Encoding

/-! ### The gate (rule R150)

The model compares machine words; the rule speaks of the DB_W bits a read takes of the count (rule R57). -/

theorem sampleDb_toNat (p : Params) (inp : Sample) : (sampleDb p inp).toNat = inp.dbCount % 2 ^ p.dbW :=
  BitVec.toNat_ofNat _ _

theorem gateHit_of_eq (p : Params) (inp : Sample) (h : p.gateCmp = .eq) :
    gateHit p inp = decide (inp.dbCount % 2 ^ p.dbW = p.dbThreshold.toNat) := by
  simp only [gateHit, h, ← BitVec.toNat_inj, sampleDb_toNat]

theorem gateHit_of_ge (p : Params) (inp : Sample) (h : p.gateCmp = .ge) :
    gateHit p inp = decide (p.dbThreshold.toNat ≤ inp.dbCount % 2 ^ p.dbW) := by
  simp only [gateHit, h, BitVec.le_def, sampleDb_toNat]

/-- Settles O18: the check records `gateHit`, which is one comparison or the other by GATE_CMP. -/
theorem gateCheckComparesCount : Obligations.GateCheckComparesCount := by
  intro s inp hready
  obtain ⟨q, hq⟩ := (ready_iff s).1 hready
  have hrun : exec (.gateCheck inp) s = .next (noteGate s (gateHit s.params inp)) :=
    hq.exec (.gateCheck inp) (by simp) rfl
  refine ⟨rfl, ?_⟩
  cases hcmp : s.params.gateCmp with
  | eq =>
    rw [hrun, gateHit_of_eq _ _ hcmp]
    rfl
  | ge =>
    rw [hrun, gateHit_of_ge _ _ hcmp]
    rfl

/-! ### The debounce pass (rule R152) -/

/-- An EDGE keeps the guard open for the next one, whether or not it fires. -/
theorem readyAt_edge {s : State} {q : Quantity} (h : ReadyAt s q) (i : Quantity) (inp : Sample) :
    ReadyAt (edge i inp s) q := by
  rw [edge_eq]
  exact ⟨h.params, ite_action_legal _ _ _ h.time, h.cursor⟩

theorem dbPass_prev (inp : Sample) (s : State) : (dbPass inp s).prev = inp.btnN := by rw [dbPass_eq]

/-- Settles O20: the states between the EDGEs are those `dbPass` composes, each ready at the same quantity. -/
theorem dbPassRunsThreeEdges : Obligations.DbPassRunsThreeEdges := by
  intro s inp hready
  obtain ⟨q, hq⟩ := (ready_iff s).1 hready
  have ha : ReadyAt (edge .seconds inp s) q := readyAt_edge hq .seconds inp
  have hb : ReadyAt (edge .minutes inp (edge .seconds inp s)) q := readyAt_edge ha .minutes inp
  exact ⟨rfl, _, _, dbPass inp s, hq.exec (.edge .seconds inp) (by simp) rfl,
    ha.exec (.edge .minutes inp) (by simp) rfl, hb.exec (.edge .hours inp) (by simp) rfl,
    hq.exec (.dbPass inp) (by simp) rfl, dbPass_prev inp s⟩

/-! ### A pass that is not gated (rule R154) -/

/-- Without the gate, phase P2 of a pass is the gate check alone: no EDGE runs. -/
theorem pass_of_no_hit (inp : Sample) (q : Quantity) (s : State) (h : gateHit s.params inp = false) :
    pass inp q s = endPass (dispStep q (gateCheck inp (secPoll inp (beginPass s)))) := by
  have hgate : gateHit (secPoll inp (beginPass s)).params inp = false := by
    rw [secPoll_params, beginPass_params, h]
  unfold Machine.pass
  rw [gatePhase_of_no_hit inp _ hgate]

/-- What is left of the pass reads the two counts only, so any other button lines give the same state. -/
theorem pass_btnN_of_no_hit (inp : Sample) (lines : Lines3) (q : Quantity) (s : State)
    (h : gateHit s.params inp = false) : pass { inp with btnN := lines } q s = pass inp q s := by
  have hlines : gateHit s.params { inp with btnN := lines } = false := h
  rw [pass_of_no_hit _ q s hlines, pass_of_no_hit inp q s h]
  rfl

theorem prevAfter_of_no_hit (s : State) (inp : Sample) (h : gateHit s.params inp = false) :
    prevAfter s inp = s.prev := if_neg (by simp [h])

theorem timeAfterPolls_of_no_hit (s : State) (inp : Sample) (h : gateHit s.params inp = false) :
    timeAfterPolls s inp = timeAfterPoll s.time (tickHit s.params inp) := if_neg (by simp [h])

/-- Settles O22. -/
theorem ungatedPassIgnoresButtons : Obligations.UngatedPassIgnoresButtons := by
  intro s inp lines hready hgate
  obtain ⟨q, hq⟩ := (ready_iff s).1 hready
  have hpass (inp' : Sample) : exec (.pass inp') s = .next (pass inp' q s) := hq.exec (.pass inp') (by simp) rfl
  refine ⟨pass inp q s, secPoll inp s, hpass inp, ?_, ?_, hq.exec (.secPoll inp) (by simp) rfl, ?_⟩
  · rw [hpass, pass_btnN_of_no_hit inp lines q s hgate]
  · rw [pass_prev, prevAfter_of_no_hit s inp hgate]
  · rw [pass_time, timeAfterPolls_of_no_hit s inp hgate, secPoll_time]

end Sys2Proof.InputDebouncer

/-! PROOFS of the family 43_control_loop.md: the seconds poll (rule R170). -/

namespace Sys2Proof.ControlLoop

open Sys2Proof.Machine Sys2Proof.Encoding

/-! ### The parameters' legality (rules R7, R176) -/

theorem legalParams_iff (p : Params) : legalParams p = true ↔ 8 ≤ p.secW ∧ p.secThreshold ≠ 0#8 ∧ 1 ≤ p.dbW := by
  simp only [legalParams, Bool.and_eq_true, decide_eq_true_eq, and_assoc]

theorem legalParams_of_zero_threshold (p : Params) (h : p.secThreshold = 0#8) : legalParams p = false := by
  rw [← Bool.not_eq_true, legalParams_iff]
  exact fun ⟨_, hne, _⟩ => hne h

/-! ### The tick (rule R170)

The model slices a machine word; the rule speaks of the top 8 of the SEC_W bits a read takes of the count. -/

/-- With SEC_W ≥ 8 the quotient already fits the slice's 8 bits; below that the slice would run past the word. -/
theorem highByte_toNat (p : Params) (inp : Sample) (hw : 8 ≤ p.secW) :
    (highByte p inp).toNat = inp.secCount % 2 ^ p.secW / 2 ^ (p.secW - 8) := by
  have hfit : inp.secCount % 2 ^ p.secW / 2 ^ (p.secW - 8) < 2 ^ 8 := by
    rw [Nat.div_lt_iff_lt_mul (Nat.two_pow_pos _), ← Nat.pow_add, Nat.add_sub_cancel' hw]
    exact Nat.mod_lt _ (Nat.two_pow_pos _)
  rw [highByte, BitVec.extractLsb'_toNat, Nat.shiftRight_eq_div_pow, sampleSec, BitVec.toNat_ofNat]
  exact Nat.mod_eq_of_lt hfit

theorem tickHit_iff (p : Params) (inp : Sample) (hw : 8 ≤ p.secW) :
    tickHit p inp = true ↔ inp.secCount % 2 ^ p.secW / 2 ^ (p.secW - 8) = p.secThreshold.toNat := by
  rw [tickHit, decide_eq_true_iff, ← BitVec.toNat_inj, highByte_toNat p inp hw]

theorem secPoll_of_tick (inp : Sample) (s : State) (h : tickHit s.params inp = true) :
    secPoll inp s = { s with
      time := incSec s.time
      events := s.events ++ [.secClr]
      transient := { s.transient with tickHit := some true } } := by
  rw [secPoll_eq, h]
  rfl

theorem secPoll_of_no_tick (inp : Sample) (s : State) (h : tickHit s.params inp = false) :
    secPoll inp s = { s with transient := { s.transient with tickHit := some false } } := by
  unfold secPoll
  rw [h]
  rfl

/-- Settles O39: a zero SEC_THRESHOLD closes the guard; behind it the poll's two outcomes are those of `tickHit`. -/
theorem secPollTicksOnHighByte : Obligations.SecPollTicksOnHighByte := by
  refine ⟨fun s inp hzero => guarded_illegal s _ (legalParams_of_zero_threshold _ hzero), fun s inp hready => ?_⟩
  obtain ⟨q, hq⟩ := (ready_iff s).1 hready
  obtain ⟨hw, _⟩ := (legalParams_iff _).1 hq.params
  have hrun : exec (.secPoll inp) s = .next (secPoll inp s) := hq.exec (.secPoll inp) (by simp) rfl
  refine ⟨rfl, fun heq => ?_, fun hne => ?_⟩
  · refine ⟨setTime s (incSec s.time), hq.exec .incSec (by simp) rfl, ?_⟩
    rw [hrun, secPoll_of_tick inp s ((tickHit_iff _ _ hw).2 heq), setTime_time]
  · rw [hrun, secPoll_of_no_tick inp s (Bool.eq_false_iff.2 (mt (tickHit_iff _ _ hw).1 hne))]

end Sys2Proof.ControlLoop

/-! PROOFS of the family 60_exceptions.md: the two outcomes of a pass (rule R194). -/

namespace Sys2Proof.Exceptions

open Sys2Proof.Machine Sys2Proof.Encoding

/-- A run ends at its first refusal, so however many steps were still asked for, the refusal is its outcome. -/
theorem run_succ_of_refused (M : Host.Core) {s : M.State} {r : M.Refusal} (h : M.step s = .refused r) (k : Nat) :
    M.run (k + 1) s = .refused r := by
  rw [Host.Core.run, h]

/-- R194(a): the pass is always runnable, so the guard alone decides whether it answers. -/
theorem exec_pass_of_ready (s : State) (inp : Sample) (hready : Ready s) : ∃ t, exec (.pass inp) s = .next t := by
  obtain ⟨q, hq⟩ := (ready_iff s).1 hready
  exact ⟨pass inp q s, hq.exec (.pass inp) (by simp) rfl⟩

/-- Settles O43: outcome (a) is the open guard's, outcome (b) one of the guard's two refusals, and a run stops there. -/
theorem passHasTwoOutcomes : Obligations.PassHasTwoOutcomes := by
  refine ⟨exec_pass_of_ready, fun s _ hillegal => ?_, fun s _ hlegal hill => ?_, fun _ _ k hrefused => ?_⟩
  · exact guarded_illegal s _ hillegal
  · exact guarded_illFormed s _ hlegal hill
  · exact run_succ_of_refused Sys2Proof.core hrefused k

end Sys2Proof.Exceptions

/-! PROOFS of the operation words (rules R80, R82; log entry 2) and of the event codes (rule R81): decoding and
encoding are inverse to each other, and the words that stand for no operation are refused by name. -/

namespace Sys2Proof.OperationWords

open Sys2Proof.Machine Sys2Proof.Encoding

/-! ### A word is its operand above its code -/

theorem opcode_lt (i : Instr) : i.opcode < 16 := by
  cases i <;> simp [Instr.opcode]

theorem encode_mod_sixteen (p : Params) (i : Instr) : encode p i % 16 = i.opcode :=
  Laws.encode_low_bits p i (opcode_lt i)

theorem encode_div_sixteen (p : Params) (i : Instr) : encode p i / 16 = operandWord p i := by
  have hop := opcode_lt i
  unfold encode
  omega

/-! ### The widths of the operands -/

theorem decodeOperand_of_lt {width n : Nat} (k : Nat → Except DecodeError Instr) (h : n < 2 ^ width) :
    decodeOperand width n k = k n := if_pos h

theorem decodeOperand_of_le {width n : Nat} (k : Nat → Except DecodeError Instr) (h : 2 ^ width ≤ n) :
    decodeOperand width n k = .error .excessBits := if_neg h.not_gt

theorem decodeOperand_ok {width n : Nat} {k : Nat → Except DecodeError Instr} {i : Instr}
    (h : decodeOperand width n k = .ok i) : n < 2 ^ width ∧ k n = .ok i := by
  unfold decodeOperand at h
  split at h
  · next hlt => exact ⟨hlt, h⟩
  · cases h

/-- No operand is an operand of no bits. -/
theorem decodePlain_eq (n : Nat) (i : Instr) : decodePlain n i = decodeOperand 0 n fun _ => .ok i := by
  rw [decodePlain, decodeOperand, Nat.pow_zero, ite_cond_congr (propext Nat.lt_one_iff)]

/-- Every code has its own number of operand bits, whatever the operand is then read as. -/
theorem decode_eq_decodeOperand (p : Params) (w : Nat) :
    ∃ k, decode p w = decodeOperand (operandBits p (w % 16)) (w / 16) k := by
  have hcode : w % 16 < 16 := Nat.mod_lt w (by decide)
  unfold decode
  simp only [decodePlain_eq]
  generalize w % 16 = c at hcode
  interval_cases c <;> exact ⟨_, rfl⟩

theorem decode_of_excess (p : Params) (w : Nat) (h : 2 ^ operandBits p (w % 16) ≤ w / 16) :
    decode p w = .error .excessBits := by
  obtain ⟨k, hk⟩ := decode_eq_decodeOperand p w
  rw [hk, decodeOperand_of_le k h]

/-! ### The operands, read back

For each form of operand: the decoder reads back what the encoder wrote, and what it reads back is written with
the same operand. -/

theorem decodeSample_packSample (p : Params) (inp : Sample) (k : Sample → Instr) (h : inp.fits p = true) :
    decodeSample p (packSample p inp) k = .ok (k inp) := by
  rw [decodeSample, decodeOperand_of_lt _ (packSample_lt p inp), unpackSample_packSample_of_fits p inp h]

/-- The three fields of a word of the record's width put it together again. -/
theorem packSample_unpackSample (p : Params) (n : Nat) (h : n < 2 ^ sampleWidth p) :
    packSample p (unpackSample p n) = n := by
  have hsec : n / 8 / 2 ^ p.dbW < 2 ^ p.secW := by
    rw [Nat.div_lt_iff_lt_mul (Nat.two_pow_pos _), Nat.div_lt_iff_lt_mul (by decide)]
    calc n < 2 ^ sampleWidth p := h
      _ = 2 ^ p.secW * 2 ^ p.dbW * 8 := by rw [sampleWidth, pow_add, pow_add]; rfl
  have hcounts : n / 8 / 2 ^ p.dbW * 2 ^ p.dbW + n / 8 % 2 ^ p.dbW = n / 8 := Nat.div_add_mod' _ _
  have hbtn : (BitVec.ofNat 3 n).toNat = n % 8 := BitVec.toNat_ofNat n 3
  simp only [packSample, unpackSample, Nat.mod_mod, Nat.mod_eq_of_lt hsec, hcounts, hbtn]
  exact Nat.div_add_mod' n 8

/-- The two low bits of an index operand name the quantity whatever stands above them (rule R74). -/
theorem ofCode_ofNat_index (a : Nat) (q : Quantity) :
    Quantity.ofCode (BitVec.ofNat 2 (a * 4 + q.index)) = some q := by
  have hcode : BitVec.ofNat 2 (a * 4 + q.index) = q.code := by
    apply BitVec.eq_of_toNat_eq
    rw [code_toNat, BitVec.toNat_ofNat, Nat.mul_add_mod_self_right]
    cases q <;> rfl
  rw [hcode, Quantity_ofCode_code]

theorem index_of_ofCode_ofNat {n : Nat} {q : Quantity} (h : Quantity.ofCode (BitVec.ofNat 2 n) = some q) :
    n % 4 = q.index := by
  rw [← code_toNat, ← code_of_ofCode _ _ h, BitVec.toNat_ofNat]

theorem decodeEdge_packSample (p : Params) (j : Quantity) (inp : Sample) (h : inp.fits p = true) :
    decodeEdge p (packSample p inp * 4 + j.index) = .ok (.edge j inp) := by
  have hpack := packSample_lt p inp
  have hindex : j.index < 4 := by cases j <;> decide
  have hlt : packSample p inp * 4 + j.index < 2 ^ (sampleWidth p + 2) := by
    rw [pow_add]
    omega
  have hdiv : (packSample p inp * 4 + j.index) / 4 = packSample p inp := by omega
  rw [decodeEdge, decodeOperand_of_lt _ hlt]
  simp only [ofCode_ofNat_index, hdiv, unpackSample_packSample_of_fits p inp h]

theorem decodeEdge_ok {p : Params} {n : Nat} {i : Instr} (h : decodeEdge p n = .ok i) :
    ∃ j inp, i = .edge j inp ∧ packSample p inp * 4 + j.index = n := by
  obtain ⟨hlt, h⟩ := decodeOperand_ok h
  split at h
  · next j hj =>
    injection h with h
    have hquot : n / 4 < 2 ^ sampleWidth p := by
      rw [pow_add] at hlt
      omega
    refine ⟨j, unpackSample p (n / 4), h.symm, ?_⟩
    rw [packSample_unpackSample p _ hquot, ← index_of_ofCode_ofNat hj]
    exact Nat.div_add_mod' n 4
  · cases h

theorem decodeBankSwitch_index (old new : Quantity) :
    decodeBankSwitch (old.index * 4 + new.index) = .ok (.bankSwitch old new) := by
  cases old <;> cases new <;> rfl

theorem decodeBankSwitch_ok {n : Nat} {i : Instr} (h : decodeBankSwitch n = .ok i) :
    ∃ old new, i = .bankSwitch old new ∧ old.index * 4 + new.index = n := by
  obtain ⟨hlt, h⟩ := decodeOperand_ok h
  split at h
  · next old new hold hnew =>
    injection h with h
    refine ⟨old, new, h.symm, ?_⟩
    have hold' := index_of_ofCode_ofNat hold
    have hnew' := index_of_ofCode_ofNat hnew
    omega
  · cases h

/-! ### Decode after encode -/

/-- Settles O1: the word's code selects the decoder of the operation's own operand. -/
theorem decodeInvertsEncode : Obligations.DecodeInvertsEncode := by
  intro p i hwf
  unfold decode
  rw [encode_mod_sixteen, encode_div_sixteen]
  cases i with
  | pass inp => exact decodeSample_packSample p inp .pass hwf
  | secPoll inp => exact decodeSample_packSample p inp .secPoll hwf
  | gateCheck inp => exact decodeSample_packSample p inp .gateCheck hwf
  | dbPass inp => exact decodeSample_packSample p inp .dbPass hwf
  | edge j inp => exact decodeEdge_packSample p j inp hwf
  | encode v =>
    refine (decodeOperand_of_lt _ v.isLt).trans ?_
    simp only [BitVec.ofNat_toNat, BitVec.setWidth_eq]
  | shiftBit b => cases b <;> rfl
  | serialize q =>
    refine (decodeOperand_of_lt _ q.isLt).trans ?_
    simp only [BitVec.ofNat_toNat, BitVec.setWidth_eq]
  | bankSwitch old new => exact decodeBankSwitch_index old new
  | _ => rfl

/-! ### Encode after decode -/

/-- The code and the operand of w are those of i; then w is the word of i, by `encode_of_fields`. -/
def FieldsOf (p : Params) (w : Nat) (i : Instr) : Prop := i.opcode = w % 16 ∧ operandWord p i = w / 16

theorem encode_of_fields {p : Params} {w : Nat} {i : Instr} (h : FieldsOf p w i) : encode p i = w := by
  obtain ⟨hcode, hoperand⟩ := h
  rw [encode, hcode, hoperand, Nat.div_add_mod']

theorem fields_of_decodePlain {p : Params} {w : Nat} {i j : Instr} (h : decodePlain (w / 16) j = .ok i)
    (hcode : w % 16 = j.opcode) (hnone : operandWord p j = 0) : FieldsOf p w i := by
  unfold decodePlain at h
  split at h
  · next hzero =>
    injection h with h
    exact h ▸ ⟨hcode.symm, hnone.trans hzero.symm⟩
  · cases h

theorem fields_of_decodeSample {p : Params} {w c : Nat} {i : Instr} {k : Sample → Instr}
    (h : decodeSample p (w / 16) k = .ok i) (hw : w % 16 = c) (hcode : ∀ inp, (k inp).opcode = c)
    (hsample : ∀ inp, operandWord p (k inp) = packSample p inp) : FieldsOf p w i := by
  obtain ⟨hlt, h⟩ := decodeOperand_ok h
  injection h with h
  refine h ▸ ⟨(hcode _).trans hw.symm, ?_⟩
  rw [hsample, packSample_unpackSample p _ hlt]

/-- Whatever a word decodes to has the word's code and operand. -/
theorem fields_of_decode {p : Params} {w : Nat} {i : Instr} (h : decode p w = .ok i) : FieldsOf p w i := by
  unfold decode at h
  split at h
  · next hc => exact fields_of_decodePlain h hc rfl
  · next hc => exact fields_of_decodeSample h hc (fun _ => rfl) (fun _ => rfl)
  · next hc => exact fields_of_decodeSample h hc (fun _ => rfl) (fun _ => rfl)
  · next hc => exact fields_of_decodeSample h hc (fun _ => rfl) (fun _ => rfl)
  · next hc => exact fields_of_decodeSample h hc (fun _ => rfl) (fun _ => rfl)
  · next hc =>
    obtain ⟨j, inp, rfl, hn⟩ := decodeEdge_ok h
    exact ⟨hc.symm, hn⟩
  · next hc => exact fields_of_decodePlain h hc rfl
  · next hc => exact fields_of_decodePlain h hc rfl
  · next hc => exact fields_of_decodePlain h hc rfl
  · next hc => exact fields_of_decodePlain h hc rfl
  · next hc =>
    obtain ⟨hlt, h⟩ := decodeOperand_ok h
    injection h with h
    exact h ▸ ⟨hc.symm, Nat.mod_eq_of_lt hlt⟩
  · next hc =>
    obtain ⟨hlt, h⟩ := decodeOperand_ok h
    injection h with h
    refine h ▸ ⟨hc.symm, ?_⟩
    rcases Nat.lt_succ_iff_lt_or_eq.1 hlt with hzero | hone
    · rw [Nat.lt_one_iff.1 hzero]
      rfl
    · rw [hone]
      rfl
  · next hc =>
    obtain ⟨hlt, h⟩ := decodeOperand_ok h
    injection h with h
    exact h ▸ ⟨hc.symm, Nat.mod_eq_of_lt hlt⟩
  · next hc => exact fields_of_decodePlain h hc rfl
  · next hc =>
    obtain ⟨old, new, rfl, hn⟩ := decodeBankSwitch_ok h
    exact ⟨hc.symm, hn⟩
  · refine fields_of_decodePlain h ?_ rfl
    change w % 16 = 15
    simp only [imp_false] at *
    omega

/-- Settles O2. -/
theorem encodeInvertsDecode : Obligations.EncodeInvertsDecode :=
  fun _ _ _ h => encode_of_fields (fields_of_decode h)

/-! ### Words that stand for no operation (rules R83, R151) -/

theorem decode_unused_button (p : Params) (n : Nat) (hn : n < 2 ^ sampleWidth p) :
    decode p ((n * 4 + 3) * 16 + 0x5) = .error .unusedButtonIndex := by
  have hcode : ((n * 4 + 3) * 16 + 0x5) % 16 = 5 := by omega
  have hoperand : ((n * 4 + 3) * 16 + 0x5) / 16 = n * 4 + 3 := by omega
  have hlt : n * 4 + 3 < 2 ^ (sampleWidth p + 2) := by
    rw [pow_add]
    omega
  have hthree : BitVec.ofNat 2 (n * 4 + 3) = 0b11#2 := by
    apply BitVec.eq_of_toNat_eq
    rw [BitVec.toNat_ofNat, BitVec.toNat_ofNat]
    omega
  have hnone : Quantity.ofCode (BitVec.ofNat 2 (n * 4 + 3)) = none := hthree ▸ rfl
  unfold decode
  rw [hcode, hoperand]
  refine (decodeOperand_of_lt _ hlt).trans ?_
  rw [hnone]

theorem decodeBankSwitch_unused :
    ∀ old < 4, ∀ new < 4, old = 3 ∨ new = 3 → decodeBankSwitch (old * 4 + new) = .error .unusedCursorCode := by
  decide

theorem decode_unused_cursor (p : Params) (old new : Nat) (hold : old < 4) (hnew : new < 4)
    (h : old = 3 ∨ new = 3) : decode p ((old * 4 + new) * 16 + 0xE) = .error .unusedCursorCode := by
  have hcode : ((old * 4 + new) * 16 + 0xE) % 16 = 14 := by omega
  have hoperand : ((old * 4 + new) * 16 + 0xE) / 16 = old * 4 + new := by omega
  unfold decode
  rw [hcode, hoperand]
  exact decodeBankSwitch_unused old hold new hnew h

/-! ### Words and codes written out -/

/-- Settles O3: each word is the word `encode` gives the operation, so it decodes to it. -/
theorem writtenWordsDecode : Obligations.WrittenWordsDecode := by
  intro p hsec hdb
  have hfits (c d : Nat) (b : Lines3) (hc : c < 2 ^ 16) (hd : d < 2 ^ 8) :
      Sample.fits p { secCount := c, dbCount := d, btnN := b } = true :=
    (sampleFits_iff p _).2 ⟨hsec ▸ hc, hdb ▸ hd⟩
  have hword (w : Nat) (i : Instr) (hwf : i.wellFormed p = true) (hw : encode p i = w) : decode p w = .ok i :=
    hw ▸ decodeInvertsEncode p i hwf
  refine ⟨rfl, hword _ _ (hfits _ _ _ (by decide) (by decide)) ?_, hword _ _ (hfits _ _ _ (by decide) (by decide)) ?_,
    rfl, rfl, rfl⟩ <;> simp [encode, operandWord, packSample, Instr.opcode, hsec, hdb]

/-- Settles O6, event by event and code by code. -/
theorem eventCodes : Obligations.EventCodes := by
  refine ⟨fun e => ?_, by decide, rfl, by decide⟩
  cases e with
  | secClr => rfl
  | bank q b => cases q <;> cases b <;> rfl
  | data b | clk b | stb b => cases b <;> rfl

end Sys2Proof.OperationWords

/-! PROOFS of the pin-change trace (rule R81): what it drops moves neither a line nor a device. -/

namespace Sys2Proof.PinChangeTrace

open Sys2Proof.Machine

/-! ### An event the trace drops -/

theorem not_changesPin_iff (o : Outputs) (e : Event) :
    changesPin o e = false ↔ e ≠ .secClr ∧ driveOutputs o e = o := by
  rw [← Bool.not_eq_true, changesPin_iff, not_or, not_not]

/-- A device acts on an edge of a line, so an event that changes no level is nothing to it (rule R132). -/
theorem seeEvent_of_not_changesPin (d : Devices) (o : Outputs) (e : Event) (h : changesPin o e = false) :
    seeEvent d o e = d := by
  cases e with
  | secClr => rfl
  | data b => rfl
  | bank q b => rfl
  | clk b =>
    cases b with
    | false => rfl
    | true => exact if_pos (by simpa [changesPin] using h)
  | stb b =>
    cases b with
    | true => rfl
    | false => exact if_neg (by simpa [changesPin] using h)

theorem pinChanges_cons_of_changes {o : Outputs} {e : Event} (es : List Event) (h : changesPin o e = true) :
    pinChanges o (e :: es) = e :: pinChanges (driveOutputs o e) es := if_pos h

/-- A dropped event leaves the levels the rest of the trace starts from. -/
theorem pinChanges_cons_of_not_changes {o : Outputs} {e : Event} (es : List Event) (h : changesPin o e = false) :
    pinChanges o (e :: es) = pinChanges o es := by
  obtain ⟨_, hdrive⟩ := (not_changesPin_iff o e).1 h
  rw [pinChanges, h, if_neg Bool.false_ne_true, hdrive]

/-! ### The trace of a list -/

theorem pinChanges_append (o : Outputs) (es fs : List Event) :
    pinChanges o (es ++ fs) = pinChanges o es ++ pinChanges (outputsAfter o es) fs := by
  induction es generalizing o with
  | nil => rfl
  | cons e es ih =>
    rw [List.cons_append, outputsAfter_cons]
    cases h : changesPin o e with
    | true => rw [pinChanges_cons_of_changes _ h, pinChanges_cons_of_changes _ h, ih, List.cons_append]
    | false =>
      obtain ⟨_, hdrive⟩ := (not_changesPin_iff o e).1 h
      rw [pinChanges_cons_of_not_changes _ h, pinChanges_cons_of_not_changes _ h, ih, hdrive]

theorem pinChanges_singleton (o : Outputs) (e : Event) :
    pinChanges o [e] = if e = .secClr ∨ driveOutputs o e ≠ o then [e] else [] := by
  simp only [← changesPin_iff, pinChanges]

theorem outputsAfter_pinChanges (o : Outputs) (es : List Event) :
    outputsAfter o (pinChanges o es) = outputsAfter o es := by
  induction es generalizing o with
  | nil => rfl
  | cons e es ih =>
    cases h : changesPin o e with
    | true => rw [pinChanges_cons_of_changes _ h, outputsAfter_cons, outputsAfter_cons, ih]
    | false =>
      obtain ⟨_, hdrive⟩ := (not_changesPin_iff o e).1 h
      rw [pinChanges_cons_of_not_changes _ h, outputsAfter_cons, hdrive, ih]

theorem devicesAfter_pinChanges (o : Outputs) (d : Devices) (es : List Event) :
    devicesAfter o d (pinChanges o es) = devicesAfter o d es := by
  induction es generalizing o d with
  | nil => rfl
  | cons e es ih =>
    cases h : changesPin o e with
    | true => rw [pinChanges_cons_of_changes _ h, devicesAfter_cons, devicesAfter_cons, ih]
    | false =>
      obtain ⟨_, hdrive⟩ := (not_changesPin_iff o e).1 h
      rw [pinChanges_cons_of_not_changes _ h, devicesAfter_cons, hdrive, seeEvent_of_not_changesPin d o e h, ih]

theorem count_secClr_pinChanges (o : Outputs) (es : List Event) :
    (pinChanges o es).count .secClr = es.count .secClr := by
  induction es generalizing o with
  | nil => rfl
  | cons e es ih =>
    cases h : changesPin o e with
    | true => rw [pinChanges_cons_of_changes _ h, List.count_cons, List.count_cons, ih]
    | false =>
      obtain ⟨hne, _⟩ := (not_changesPin_iff o e).1 h
      rw [pinChanges_cons_of_not_changes _ h, List.count_cons_of_ne hne, ih]

/-- Every event of the trace but SEC_CLR changes a level the trace itself has left so far: the dropped events
between them moved none. -/
theorem pinChanges_getElem?_changes (o : Outputs) (es : List Event) (k : Nat) (e : Event)
    (hk : (pinChanges o es)[k]? = some e) (hne : e ≠ .secClr) :
    driveOutputs (outputsAfter o ((pinChanges o es).take k)) e ≠ outputsAfter o ((pinChanges o es).take k) := by
  induction es generalizing o k with
  | nil => cases hk
  | cons f es ih =>
    cases h : changesPin o f with
    | false =>
      rw [pinChanges_cons_of_not_changes _ h] at hk ⊢
      exact ih o k hk
    | true =>
      rw [pinChanges_cons_of_changes _ h] at hk ⊢
      cases k with
      | zero =>
        obtain rfl : f = e := by simpa using hk
        exact ((changesPin_iff o f).1 h).resolve_left hne
      | succ k => exact ih (driveOutputs o f) k hk

/-- Settles O7. -/
theorem pinChangeTraceKeepsLinesAndDevices : Obligations.PinChangeTraceKeepsLinesAndDevices := by
  refine ⟨fun o es e => ?_, pinChanges_getElem?_changes, fun o d es => ⟨rfl, outputsAfter_pinChanges o es,
    devicesAfter_pinChanges o d es, count_secClr_pinChanges o es⟩⟩
  rw [pinChanges_append, pinChanges_singleton]

end Sys2Proof.PinChangeTrace

/-! PROOFS of the arithmetic law of 40_time_model.md (rules R104, R105): increments add seconds modulo 12 hours, and
the number of seconds determines the time. -/

namespace Sys2Proof.ElapsedTime

open Sys2Proof.Machine Sys2Proof.StateWrites Sys2Proof.Encoding Sys2Proof.TimeModel

/-! ### Times in range and the seconds past 12:00:00 -/

theorem elapsed_lt (t : Time) (h : legalTime t = true) : t.elapsed < 43200 := by
  obtain ⟨hsec, hmin, _, _⟩ := (legalTime_iff t).1 h
  unfold Time.elapsed
  omega

/-- The time n seconds past 12:00:00; `timeAt_legal` and `elapsed_timeAt` tie it to the model. -/
def timeAt (n : Nat) : Time where
  second := BitVec.ofNat 6 (n % 60)
  minute := BitVec.ofNat 6 (n / 60 % 60)
  hour := BitVec.ofNat 4 (if n / 3600 = 0 then 12 else n / 3600)

theorem timeAt_toNat (n : Nat) (h : n < 43200) :
    (timeAt n).second.toNat = n % 60 ∧ (timeAt n).minute.toNat = n / 60 % 60 ∧
      (timeAt n).hour.toNat = if n / 3600 = 0 then 12 else n / 3600 := by
  refine ⟨Nat.mod_eq_of_lt (by omega), Nat.mod_eq_of_lt (by omega), Nat.mod_eq_of_lt ?_⟩
  split <;> omega

theorem timeAt_legal (n : Nat) (h : n < 43200) : legalTime (timeAt n) = true := by
  obtain ⟨hsec, hmin, hhour⟩ := timeAt_toNat n h
  rw [legalTime_iff, hsec, hmin, hhour]
  split <;> omega

theorem elapsed_timeAt (n : Nat) (h : n < 43200) : (timeAt n).elapsed = n := by
  obtain ⟨hsec, hmin, hhour⟩ := timeAt_toNat n h
  rw [Time.elapsed, hsec, hmin, hhour]
  split <;> omega

/-- Two times in range with the same number of seconds are the same time. -/
theorem eq_of_elapsed_eq (t u : Time) (ht : legalTime t = true) (hu : legalTime u = true)
    (h : t.elapsed = u.elapsed) : t = u := by
  obtain ⟨hsec, hmin, hlow, hhigh⟩ := (legalTime_iff t).1 ht
  obtain ⟨hsec', hmin', hlow', hhigh'⟩ := (legalTime_iff u).1 hu
  unfold Time.elapsed at h
  have hsecond : t.second = u.second := BitVec.eq_of_toNat_eq (by omega)
  have hminute : t.minute = u.minute := BitVec.eq_of_toNat_eq (by omega)
  have hhour : t.hour = u.hour := BitVec.eq_of_toNat_eq (by omega)
  cases t
  cases u
  simp_all only

/-! ### The increments -/

theorem elapsed_incHour (t : Time) (h : legalTime t = true) :
    (incHour t).elapsed = (t.elapsed + 3600) % 43200 := by
  obtain ⟨hsec, hmin, hlow, hhigh⟩ := (legalTime_iff t).1 h
  rw [incHour_eq]
  unfold Time.elapsed
  split
  · next htwelve =>
    rw [htwelve]
    simp only [BitVec.toNat_ofNat]
    omega
  · simp only [BitVec.toNat_ofNat]
    omega

theorem elapsed_incMin (t : Time) (h : legalTime t = true) : (incMin t).elapsed = (t.elapsed + 60) % 43200 := by
  obtain ⟨hsec, hmin, hlow, hhigh⟩ := (legalTime_iff t).1 h
  by_cases hcarry : t.minute.toNat = 59
  · have hzero : legalTime { t with minute := 0#6 } = true := (legalTime_iff _).2 ⟨hsec, by simp, hlow, hhigh⟩
    rw [incMin_of_eq t hcarry, elapsed_incHour _ hzero]
    simp only [Time.elapsed, hcarry, BitVec.toNat_ofNat]
    omega
  · rw [incMin_of_ne t hcarry]
    simp only [Time.elapsed, BitVec.toNat_ofNat]
    omega

theorem elapsed_incSec (t : Time) (h : legalTime t = true) : (incSec t).elapsed = (t.elapsed + 1) % 43200 := by
  obtain ⟨hsec, hmin, hlow, hhigh⟩ := (legalTime_iff t).1 h
  by_cases hcarry : t.second.toNat = 59
  · have hzero : legalTime { t with second := 0#6 } = true := (legalTime_iff _).2 ⟨by simp, hmin, hlow, hhigh⟩
    rw [incSec_of_eq t hcarry, elapsed_incMin _ hzero]
    simp only [Time.elapsed, hcarry, BitVec.toNat_ofNat]
  · rw [incSec_of_ne t hcarry]
    simp only [Time.elapsed, BitVec.toNat_ofNat]
    omega

theorem elapsed_action (t : Time) (q : Quantity) (h : legalTime t = true) :
    (action t q).elapsed = (t.elapsed + incrementSize q) % 43200 := by
  cases q with
  | seconds => exact elapsed_incSec t h
  | minutes => exact elapsed_incMin t h
  | hours => exact elapsed_incHour t h

/-- Settles O15. -/
theorem incrementsAddModulo43200 : Obligations.IncrementsAddModulo43200 := by
  refine ⟨elapsed_lt, fun n hn => ⟨timeAt n, timeAt_legal n hn, elapsed_timeAt n hn⟩, eq_of_elapsed_eq,
    fun q s hready => ?_⟩
  obtain ⟨_, htime, _⟩ := hready.cases
  exact ⟨_, exec_incrementOf_of_action s q _ hready rfl, action_legal _ q htime, elapsed_action _ q htime⟩

/-- Both orders add the same seconds, so they leave the same time. -/
theorem action_comm (t : Time) (q r : Quantity) (h : legalTime t = true) :
    action (action t q) r = action (action t r) q := by
  have hq := action_legal t q h
  have hr := action_legal t r h
  apply eq_of_elapsed_eq _ _ (action_legal _ r hq) (action_legal _ q hr)
  rw [elapsed_action _ r hq, elapsed_action _ q hr, elapsed_action t q h, elapsed_action t r h, Nat.mod_add_mod,
    Nat.mod_add_mod, Nat.add_right_comm]

/-- An increment leaves the state ready for the next one. -/
theorem ready_of_action {s : State} (q : Quantity) (h : Ready s) : Ready { s with time := action s.time q } := by
  obtain ⟨c, hparams, htime, hcursor⟩ := (ready_iff s).1 h
  exact (ready_iff _).2 ⟨c, hparams, action_legal _ q htime, hcursor⟩

/-- Settles O16. -/
theorem incrementsCommute : Obligations.IncrementsCommute := by
  intro q r s hready
  obtain ⟨_, htime, _⟩ := hready.cases
  exact ⟨_, _, _, exec_incrementOf_of_action s q _ hready rfl, exec_incrementOf_of_action s r _ hready rfl,
    exec_incrementOf_of_action _ r _ (ready_of_action q hready) rfl,
    exec_incrementOf_of_action _ q _ (ready_of_action r hready) (action_comm _ r q htime)⟩

/-! ### Several increments -/

/-- The seconds a list of increments adds; `elapsed_foldl_action` ties it to the model. -/
def secondsAdded (qs : List Quantity) : Nat := (qs.map incrementSize).sum

theorem secondsAdded_nil : secondsAdded [] = 0 := rfl

theorem secondsAdded_cons (q : Quantity) (qs : List Quantity) :
    secondsAdded (q :: qs) = incrementSize q + secondsAdded qs := rfl

theorem foldl_action_legal (t : Time) (qs : List Quantity) (h : legalTime t = true) :
    legalTime (qs.foldl action t) = true := by
  induction qs generalizing t with
  | nil => exact h
  | cons q qs ih => exact ih _ (action_legal t q h)

theorem elapsed_foldl_action (t : Time) (qs : List Quantity) (h : legalTime t = true) :
    (qs.foldl action t).elapsed = (t.elapsed + secondsAdded qs) % 43200 := by
  induction qs generalizing t with
  | nil => rw [List.foldl_nil, secondsAdded_nil, Nat.add_zero, Nat.mod_eq_of_lt (elapsed_lt t h)]
  | cons q qs ih =>
    rw [List.foldl_cons, ih _ (action_legal t q h), elapsed_action t q h, Nat.mod_add_mod, Nat.add_assoc,
      secondsAdded_cons]

theorem secondsAdded_append (qs rs : List Quantity) :
    secondsAdded (qs ++ rs) = secondsAdded qs + secondsAdded rs := by
  rw [secondsAdded, List.map_append, List.sum_append]
  rfl

theorem secondsAdded_pollIncrements (tick : Bool) : secondsAdded (pollIncrements tick) = if tick then 1 else 0 := by
  cases tick <;> rfl

theorem secondsAdded_cons_filter (q : Quantity) (qs : List Quantity) (f : Quantity → Bool) :
    secondsAdded ((q :: qs).filter f) = (if f q then incrementSize q else 0) + secondsAdded (qs.filter f) := by
  rw [List.filter_cons]
  split
  · rfl
  · exact (Nat.zero_add _).symm

/-- Each button that fires adds its own seconds, once. -/
theorem secondsAdded_firedButtons (prev : Lines3) (inp : Sample) :
    secondsAdded (firedButtons prev inp) =
      (if fires prev inp .seconds then 1 else 0) + (if fires prev inp .minutes then 60 else 0) +
        (if fires prev inp .hours then 3600 else 0) := by
  rw [firedButtons, secondsAdded_cons_filter, secondsAdded_cons_filter, secondsAdded_cons_filter, Nat.add_assoc]
  rfl

end Sys2Proof.ElapsedTime

/-! PROOFS about the buttons (rules R150 to R153): what fires in a debounce pass, and which operations write a
recorded level. -/

namespace Sys2Proof.Buttons

open Sys2Proof.Machine Sys2Proof.StateWrites Sys2Proof.Encoding Sys2Proof.InputDebouncer Sys2Proof.ElapsedTime

theorem fires_eq (prev : Lines3) (inp : Sample) (i : Quantity) :
    fires prev inp i = (!line prev i && line inp.btnN i) := rfl

/-! ### The debounce pass (rule R152) -/

theorem line_fireLines (prev : Lines3) (inp : Sample) (i : Quantity) :
    line (fireLines prev inp) i = fires prev inp i := by
  cases i <;> simp [fireLines, line_setLine]

theorem dbPass_fire (inp : Sample) (s : State) : (dbPass inp s).transient.fire = fireLines s.prev inp := by
  rw [dbPass_eq]

theorem dbPass_frame (inp : Sample) (s : State) :
    dbPass inp s = { s with
      time := (dbPass inp s).time
      prev := inp.btnN
      transient := { s.transient with fire := (dbPass inp s).transient.fire } } := by
  rw [dbPass_eq]

/-- Settles O21: the increments are those of the buttons that fire, judged on the levels before the pass. -/
theorem dbPassAddsEachReleaseOnce : Obligations.DbPassAddsEachReleaseOnce := by
  intro s inp hready
  obtain ⟨q, hq⟩ := (ready_iff s).1 hready
  refine ⟨dbPass inp s, hq.exec (.dbPass inp) (by simp) rfl, fun i => ?_, ?_, dbPass_frame inp s⟩
  · rw [dbPass_fire, line_fireLines, fires_eq]
  · rw [dbPass_fire, line_fireLines, line_fireLines, line_fireLines, dbPass_time, timeAfterButtons_eq_foldl,
      elapsed_foldl_action _ _ hq.time, secondsAdded_firedButtons, Nat.add_assoc, Nat.add_assoc, Nat.add_assoc]

/-- Settles O26: the line stored is the sampled one, and the fire bit is a function of the two lines. -/
theorem buttonsShareNoState : Obligations.ButtonsShareNoState := by
  intro s s' inp inp' i hready hready' hprev hbtn
  obtain ⟨q, hq⟩ := (ready_iff s).1 hready
  obtain ⟨q', hq'⟩ := (ready_iff s').1 hready'
  refine ⟨_, _, hq.exec (.dbPass inp) (by simp) rfl, hq'.exec (.dbPass inp') (by simp) rfl, ?_, ?_⟩
  · exact (congrArg (line · i) (dbPass_prev inp s)).trans
      (hbtn.trans (congrArg (line · i) (dbPass_prev inp' s')).symm)
  · simp only [meaningAt, dbPass_fire, line_fireLines, fires_eq, hprev, hbtn]

/-! ### The gate (rules R150, R197) -/

/-- Settles O23: both samples meet the threshold exactly when they show the same count. -/
theorem eqGateHoldsForOneCounterTick : Obligations.EqGateHoldsForOneCounterTick := by
  intro p inp inp' ticks hcmp hgate hcount
  rw [gateHit_of_eq p inp hcmp, decide_eq_true_iff] at hgate
  rw [gateHit_of_eq p inp' hcmp, decide_eq_true_iff, hcount, debounceAfter, Nat.mod_mod, ← hgate,
    ← Nat.dvd_iff_mod_eq_zero]
  exact Nat.add_modEq_left_iff

/-! ### Who writes a recorded level (rule R25) -/

@[simp] theorem secPoll_prev (inp : Sample) (s : State) : (secPoll inp s).prev = s.prev := by rw [secPoll_eq]
@[simp] theorem gateCheck_prev (inp : Sample) (s : State) : (gateCheck inp s).prev = s.prev := rfl
@[simp] theorem dispStep_prev (q : Quantity) (s : State) : (dispStep q s).prev = s.prev := by rw [dispStep_eq]

/-- A level an operation changes is the level it samples. -/
theorem meaningAt_prev_ne (i : Instr) (q j : Quantity) (s : State)
    (hne : line (meaningAt i q s).prev j ≠ line s.prev j) :
    ∃ inp, line (meaningAt i q s).prev j = line inp.btnN j ∧
      (i = .edge j inp ∨ i = .dbPass inp ∨ (i = .pass inp ∧ gateHit s.params inp = true)) := by
  cases i with
  | edge k inp =>
    obtain rfl : j = k := by
      by_contra hjk
      obtain ⟨hsame, _⟩ := edge_other_lines k j inp s hjk
      exact hne hsame
    refine ⟨inp, ?_, .inl rfl⟩
    rw [meaningAt, edge_prev, line_setLine_self]
  | dbPass inp => exact ⟨inp, by rw [meaningAt, dbPass_prev], .inr (.inl rfl)⟩
  | pass inp =>
    cases hgate : gateHit s.params inp with
    | true => exact ⟨inp, by rw [meaningAt, pass_prev, prevAfter, if_pos hgate], .inr (.inr ⟨rfl, hgate⟩)⟩
    | false =>
      rw [meaningAt, pass_prev, prevAfter_of_no_hit s inp hgate] at hne
      exact absurd rfl hne
  | _ => simp [meaningAt] at hne

/-- Settles O27. -/
theorem recordedLevelsAreWrittenByEdgeOnly : Obligations.RecordedLevelsAreWrittenByEdgeOnly := by
  refine ⟨fun i s t j hr h hne => ?_, fun s t h => ?_⟩
  · rcases exec_next i s t h with ⟨hreset, _⟩ | ⟨_, _, _, _, q, _, rfl⟩
    · exact absurd hreset hr
    · exact meaningAt_prev_ne i q j s hne
  · rw [exec_reset] at h
    injection h with h
    rw [← h, resetBlock_prev]

end Sys2Proof.Buttons

/-! PROOFS about passes and runs of passes (rules R171, R172): a pass from a ready state leaves one, so any list of
sample records runs, and what a run does is read off pass by pass. -/

namespace Sys2Proof.Passes

open Sys2Proof.Machine Sys2Proof.StateWrites Sys2Proof.Encoding Sys2Proof.DisplayDriver Sys2Proof.InputDebouncer
open Sys2Proof.ControlLoop Sys2Proof.ElapsedTime Sys2Proof.Buttons

/-! ### One pass -/

theorem exec_pass {s : State} {q : Quantity} (h : ReadyAt s q) (inp : Sample) :
    exec (.pass inp) s = .next (pass inp q s) := h.exec (.pass inp) (by simp) rfl

theorem readyAt_pass {s : State} {q : Quantity} (h : ReadyAt s q) (inp : Sample) :
    ReadyAt (pass inp q s) (nextQuantity q) where
  params := (pass_params inp q s).symm ▸ h.params
  time := (pass_time inp q s).symm ▸ timeAfterPolls_legal s inp h.time
  cursor := pass_cursor inp q s

theorem elapsed_pass {s : State} {q : Quantity} (h : ReadyAt s q) (inp : Sample) :
    (pass inp q s).time.elapsed =
      (s.time.elapsed + secondsAdded (incrementsRun (.pass inp) s)) % 43200 := by
  rw [pass_time, timeAfterPolls_eq_foldl, elapsed_foldl_action _ _ h.time]

/-- The seconds a pass adds: the tick's, and in a gated pass those of the buttons that fire (rules R78, R171). -/
theorem secondsAdded_pass (inp : Sample) (s : State) :
    secondsAdded (incrementsRun (.pass inp) s) =
      (if tickHit s.params inp then 1 else 0) +
        (if gateHit s.params inp then secondsAdded (firedButtons s.prev inp) else 0) := by
  rw [incrementsRun, secondsAdded_append, secondsAdded_pollIncrements, apply_ite secondsAdded, secondsAdded_nil]

/-- Settles O41: where the gate is closed no button term remains, where it is open they are the fire bits. -/
theorem passAddsTickAndReleases : Obligations.PassAddsTickAndReleases := by
  intro s inp hready
  obtain ⟨q, hq⟩ := (ready_iff s).1 hready
  refine ⟨pass inp q s, exec_pass hq inp, ?_, pass_prev inp q s, pass_params inp q s, pass_stimulus inp q s,
    pass_draws inp q s⟩
  rw [elapsed_pass hq, secondsAdded_pass]
  cases gateHit s.params inp with
  | false => simp
  | true => simp [secondsAdded_firedButtons, fires_eq, Nat.add_assoc]

/-- A pass leaves its display rendering the time it leaves, at the quantity its cursor names (rules R128, R174). -/
theorem pass_latch (inp : Sample) (q : Quantity) (s : State) :
    (pass inp q s).devices.latch = encodePattern (field (pass inp q s).time (nextQuantity q)) := by
  rw [pass_devices, pass_time]
  rfl

/-- Settles O42. -/
theorem passLatchesUpdatedTime : Obligations.PassLatchesUpdatedTime := by
  intro s inp hready
  obtain ⟨q, hq⟩ := (ready_iff s).1 hready
  exact ⟨pass inp q s, nextQuantity q, exec_pass hq inp, pass_cursor inp q s, (readyAt_pass hq inp).time,
    pass_latch inp q s⟩

theorem length_pass_events (inp : Sample) (q : Quantity) (s : State) :
    52 ≤ (pass inp q s).events.length ∧ (pass inp q s).events.length ≤ 53 := by
  cases htick : tickHit s.params inp with
  | true =>
    obtain ⟨hlen, _⟩ := pass_events_of_tick inp q s htick
    omega
  | false =>
    obtain ⟨hlen, _⟩ := pass_events_of_no_tick inp q s htick
    omega

/-- A tick pass emits SEC_CLR once, before its display step (rule R170). -/
theorem count_secClr_of_tick (inp : Sample) (q : Quantity) (s : State) (h : tickHit s.params inp = true) :
    (pass inp q s).events.count .secClr = 1 := by
  have hdisplay : (displayEvents q (nextQuantity q) (renderedPattern s inp q)).count .secClr = 0 :=
    List.count_eq_zero.2 (secClr_not_mem_displayEvents _ _ _)
  rw [pass_events, h, List.count_append, hdisplay]
  rfl

/-! ### Runs of passes

From a ready state the outcome of a run is a plain recursion on the sample records. -/

/-- The state after a run of passes from s, whose cursor names q; `runPasses_eq` ties it to the model. -/
def stateAfter (q : Quantity) (s : State) : List Sample → State
  | [] => s
  | inp :: rest => stateAfter (nextQuantity q) (pass inp q s) rest

/-- The event lists of a run of passes from s, one after the other; `runPasses_eq` ties it to the model. -/
def eventsAfter (q : Quantity) (s : State) : List Sample → List Event
  | [] => []
  | inp :: rest => (pass inp q s).events ++ eventsAfter (nextQuantity q) (pass inp q s) rest

theorem runPasses_eq {s : State} {q : Quantity} (h : ReadyAt s q) (inps : List Sample) :
    runPasses s inps = some (stateAfter q s inps, eventsAfter q s inps) := by
  induction inps generalizing s q with
  | nil => rfl
  | cons inp rest ih =>
    rw [runPasses, exec_pass h inp]
    simp only [ih (readyAt_pass h inp), Option.map_some]
    rfl

/-- A run of n passes moves the cursor n steps on in its cycle, and leaves the state ready. -/
theorem readyAt_stateAfter {s : State} {q : Quantity} (h : ReadyAt s q) (inps : List Sample) :
    ReadyAt (stateAfter q s inps) (nextQuantity^[inps.length] q) := by
  induction inps generalizing s q with
  | nil => exact h
  | cons inp rest ih => exact ih (readyAt_pass h inp)

theorem stateAfter_params (q : Quantity) (s : State) (inps : List Sample) :
    (stateAfter q s inps).params = s.params := by
  induction inps generalizing s q with
  | nil => rfl
  | cons inp rest ih => rw [stateAfter, ih, pass_params]

theorem length_eventsAfter (q : Quantity) (s : State) (inps : List Sample) :
    52 * inps.length ≤ (eventsAfter q s inps).length ∧ (eventsAfter q s inps).length ≤ 53 * inps.length := by
  induction inps generalizing s q with
  | nil => exact ⟨le_rfl, le_rfl⟩
  | cons inp rest ih =>
    obtain ⟨hlow, hhigh⟩ := length_pass_events inp q s
    obtain ⟨ihlow, ihhigh⟩ := ih (nextQuantity q) (pass inp q s)
    rw [eventsAfter, List.length_append, List.length_cons]
    omega

/-- Settles O58. -/
theorem passesFollowOneAnother : Obligations.PassesFollowOneAnother := by
  intro s inps hready
  obtain ⟨q, hq⟩ := (ready_iff s).1 hready
  obtain ⟨hlow, hhigh⟩ := length_eventsAfter q s inps
  exact ⟨_, _, runPasses_eq hq inps, (ready_iff _).2 ⟨_, readyAt_stateAfter hq inps⟩, stateAfter_params q s inps,
    hlow, hhigh⟩

/-! ### Rotation (rules R120, R131) -/

theorem index_nextQuantity (q : Quantity) : (nextQuantity q).index = (q.index + 1) % 3 := by
  cases q <;> rfl

theorem index_iterate_nextQuantity (q : Quantity) (n : Nat) :
    (nextQuantity^[n] q).index = (q.index + n) % 3 := by
  induction n with
  | zero => cases q <;> rfl
  | succ n ih => rw [Function.iterate_succ_apply', index_nextQuantity, ih, Nat.mod_add_mod, Nat.add_assoc]

/-- The last pass of a run has rendered the quantity the cursor is left at. -/
theorem stateAfter_latch (q : Quantity) (s : State) (inps : List Sample) (h : inps ≠ []) :
    (stateAfter q s inps).devices.latch =
      encodePattern (field (stateAfter q s inps).time (nextQuantity^[inps.length] q)) := by
  induction inps generalizing s q with
  | nil => exact absurd rfl h
  | cons inp rest ih =>
    cases rest with
    | nil => exact pass_latch inp q s
    | cons inp' rest => exact ih (nextQuantity q) (pass inp q s) (List.cons_ne_nil _ _)

/-- The step form of the rotation, for every ready state. -/
theorem passes_rotate {s : State} {old : Quantity} (h : ReadyAt s old) (inps : List Sample) (hne : inps ≠ []) :
    ∃ t es q, runPasses s inps = some (t, es) ∧ t.cursor = Quantity.code q ∧
      q.index = (old.index + inps.length) % 3 ∧ t.devices.latch = encodePattern (field t.time q) :=
  ⟨_, _, nextQuantity^[inps.length] old, runPasses_eq h inps, (readyAt_stateAfter h inps).cursor,
    index_iterate_nextQuantity old inps.length, stateAfter_latch old s inps hne⟩

/-- Reset leaves a legal part ready, at HOURS (rule R210). -/
theorem readyAt_resetOf (p : Params) (h : legalParams p = true) : ReadyAt (State.resetOf p) .hours :=
  ⟨h, rfl, rfl⟩

/-- Settles O59: reset starts the cycle at HOURS, whose index is 2. -/
theorem passesRotateFromReset : Obligations.PassesRotateFromReset := by
  refine ⟨fun s old inps hready hcursor hne => ?_, fun p inps hp hne => ?_⟩
  · obtain ⟨hparams, htime, _⟩ := hready.cases
    exact passes_rotate ⟨hparams, htime, hcursor⟩ inps hne
  · obtain ⟨t, es, q, hrun, hcursor, hindex, hlatch⟩ := passes_rotate (readyAt_resetOf p hp) inps hne
    refine ⟨t, es, q, hrun, hcursor, ?_, hlatch⟩
    rw [hindex, Quantity.index]
    omega

/-! ### Ungated tick passes (rules R105, R106) -/

theorem elapsed_stateAfter_of_ticks {s : State} {q : Quantity} (h : ReadyAt s q) (inps : List Sample)
    (hinps : ∀ inp ∈ inps, tickHit s.params inp = true ∧ gateHit s.params inp = false) :
    (stateAfter q s inps).time.elapsed = (s.time.elapsed + inps.length) % 43200 := by
  induction inps generalizing s q with
  | nil => rw [stateAfter, List.length_nil, Nat.add_zero, Nat.mod_eq_of_lt (elapsed_lt _ h.time)]
  | cons inp rest ih =>
    obtain ⟨⟨htick, hgate⟩, hrest⟩ := List.forall_mem_cons.1 hinps
    have hone : secondsAdded (incrementsRun (.pass inp) s) = 1 := by
      rw [secondsAdded_pass, htick, hgate]
      rfl
    rw [stateAfter, ih (readyAt_pass h inp) (by rwa [pass_params]), elapsed_pass h, hone, Nat.mod_add_mod,
      List.length_cons, Nat.add_assoc, Nat.add_comm 1]

theorem count_secClr_of_ticks (q : Quantity) (s : State) (inps : List Sample)
    (hinps : ∀ inp ∈ inps, tickHit s.params inp = true) : (eventsAfter q s inps).count .secClr = inps.length := by
  induction inps generalizing s q with
  | nil => rfl
  | cons inp rest ih =>
    obtain ⟨htick, hrest⟩ := List.forall_mem_cons.1 hinps
    rw [eventsAfter, List.count_append, count_secClr_of_tick inp q s htick, ih _ _ (by rwa [pass_params]),
      List.length_cons, Nat.add_comm]

/-- The time a run of ticks from reset leaves is the one time in range with that many seconds. -/
theorem time_of_ticks_from_reset (p : Params) (inps : List Sample) (hp : legalParams p = true)
    (hinps : ∀ inp ∈ inps, tickHit p inp = true ∧ gateHit p inp = false) (t : Time) (ht : legalTime t = true)
    (helapsed : t.elapsed = inps.length % 43200) : (stateAfter .hours (State.resetOf p) inps).time = t := by
  have hready := readyAt_resetOf p hp
  have hzero : (State.resetOf p).time.elapsed = 0 := by simp [State.resetOf, Time.reset, Time.elapsed]
  apply eq_of_elapsed_eq _ _ (readyAt_stateAfter hready inps).time ht
  rw [elapsed_stateAfter_of_ticks hready inps hinps, hzero, Nat.zero_add, helapsed]

/-- Settles O60. -/
theorem tickPassesCountSeconds : Obligations.TickPassesCountSeconds := by
  refine ⟨fun s inps hready hinps => ?_, fun p inps hp hinps => ?_⟩
  · obtain ⟨q, hq⟩ := (ready_iff s).1 hready
    exact ⟨_, _, runPasses_eq hq inps, elapsed_stateAfter_of_ticks hq inps hinps,
      count_secClr_of_ticks q s inps fun inp hmem => (hinps inp hmem).1⟩
  · have htime := time_of_ticks_from_reset p inps hp hinps
    refine ⟨_, _, runPasses_eq (readyAt_resetOf p hp) inps, fun hlen => ?_, fun hlen => ?_, fun hlen => ?_⟩
    · exact htime _ rfl (by simp [hlen, Time.elapsed])
    · exact htime _ rfl (by simp [hlen, Time.elapsed])
    · exact htime _ rfl (by simp [hlen, Time.elapsed])

/-! ### One button pressed and released (rule R156)

In a gated pass without a tick the time goes by the buttons that fire and nothing else. -/

/-- The lines with button i pressed and the others released (rule R75). -/
abbrev pressed (i : Quantity) : Lines3 := setLine 0b111#3 i false

theorem line_released (j : Quantity) : line 0b111#3 j = true := by
  cases j <;> rfl

theorem line_pressed (i j : Quantity) : line (pressed i) j = decide (j ≠ i) := by
  rw [line_setLine, line_released]
  split
  · next h => exact (decide_eq_false (not_not.2 h)).symm
  · next h => exact (decide_eq_true h).symm

theorem eq_pressed (v : Lines3) (i : Quantity) (hi : line v i = false) (hothers : ∀ j, j ≠ i → line v j = true) :
    v = pressed i := by
  apply lines_ext
  intro j
  rw [line_pressed]
  by_cases h : j = i
  · rw [h, hi, decide_eq_false (not_not.2 rfl)]
  · rw [hothers j h, decide_eq_true h]

/-- A press fires nothing: the pressed button is sampled 0, the others are recorded 1 (rule R79). -/
theorem firedButtons_of_press (prev : Lines3) (inp : Sample) (i : Quantity)
    (hothers : ∀ j, j ≠ i → line prev j = true) (hbtn : inp.btnN = pressed i) : firedButtons prev inp = [] := by
  refine List.filter_eq_nil_iff.2 fun j _ hfires => ?_
  obtain ⟨hprev, hsampled⟩ := (fires_iff prev inp j).1 hfires
  rw [hbtn, line_pressed, decide_eq_true_iff] at hsampled
  rw [hothers j hsampled] at hprev
  cases hprev

/-- A release fires its own button and no other (rule R79). -/
theorem firedButtons_of_release (inp : Sample) (i : Quantity) (hbtn : inp.btnN = 0b111#3) :
    firedButtons (pressed i) inp = [i] := by
  have hfires (j : Quantity) : fires (pressed i) inp j = decide (j = i) := by
    rw [fires_eq, hbtn, line_pressed, line_released, Bool.and_true, decide_not, Bool.not_not]
  rw [firedButtons, funext hfires]
  cases i <;> rfl

theorem pass_of_gated_quiet (inp : Sample) (q : Quantity) (s : State) (hgate : gateHit s.params inp = true)
    (htick : tickHit s.params inp = false) :
    (pass inp q s).time = (firedButtons s.prev inp).foldl action s.time ∧ (pass inp q s).prev = inp.btnN := by
  rw [pass_time, timeAfterPolls_eq_foldl, incrementsRun, htick, if_pos hgate, pass_prev]
  exact ⟨rfl, if_pos hgate⟩

theorem pass_of_press (inp : Sample) (q i : Quantity) (s : State) (hgate : gateHit s.params inp = true)
    (htick : tickHit s.params inp = false) (hothers : ∀ j, j ≠ i → line s.prev j = true)
    (hbtn : inp.btnN = pressed i) : (pass inp q s).time = s.time ∧ (pass inp q s).prev = pressed i := by
  obtain ⟨htime, hprev⟩ := pass_of_gated_quiet inp q s hgate htick
  rw [firedButtons_of_press s.prev inp i hothers hbtn] at htime
  exact ⟨htime, hprev.trans hbtn⟩

theorem pass_of_release (inp : Sample) (q i : Quantity) (s : State) (hgate : gateHit s.params inp = true)
    (htick : tickHit s.params inp = false) (hpressed : s.prev = pressed i) (hbtn : inp.btnN = 0b111#3) :
    (pass inp q s).time = action s.time i ∧ (pass inp q s).prev = 0b111#3 := by
  obtain ⟨htime, hprev⟩ := pass_of_gated_quiet inp q s hgate htick
  rw [hpressed, firedButtons_of_release inp i hbtn] at htime
  exact ⟨htime, hprev.trans hbtn⟩

/-- Samples with button i held, in gated passes without a tick. -/
def Held (p : Params) (i : Quantity) (inp : Sample) : Prop :=
  gateHit p inp = true ∧ tickHit p inp = false ∧ inp.btnN = pressed i

/-- However long the button is held, the time stands still and the press stays recorded. -/
theorem stateAfter_of_held (q i : Quantity) (s : State) (inps : List Sample) (hpressed : s.prev = pressed i)
    (hinps : ∀ inp ∈ inps, Held s.params i inp) :
    (stateAfter q s inps).time = s.time ∧ (stateAfter q s inps).prev = pressed i := by
  induction inps generalizing s q with
  | nil => exact ⟨rfl, hpressed⟩
  | cons inp rest ih =>
    obtain ⟨⟨hgate, htick, hbtn⟩, hrest⟩ := List.forall_mem_cons.1 hinps
    have hothers : ∀ j, j ≠ i → line s.prev j = true := fun j hj => by
      rw [hpressed, line_pressed, decide_eq_true hj]
    obtain ⟨htime, hprev⟩ := pass_of_press inp q i s hgate htick hothers hbtn
    obtain ⟨ihtime, ihprev⟩ := ih (nextQuantity q) (pass inp q s) hprev (by rwa [pass_params])
    exact ⟨ihtime.trans htime, ihprev⟩

/-- The first held sample records the press, which is all `stateAfter_of_held` asks for. -/
theorem stateAfter_of_first_held (q i : Quantity) (s : State) (inps : List Sample)
    (hothers : ∀ j, j ≠ i → line s.prev j = true) (hne : inps ≠ []) (hinps : ∀ inp ∈ inps, Held s.params i inp) :
    (stateAfter q s inps).time = s.time ∧ (stateAfter q s inps).prev = pressed i := by
  cases inps with
  | nil => exact absurd rfl hne
  | cons inp rest =>
    obtain ⟨⟨hgate, htick, hbtn⟩, hrest⟩ := List.forall_mem_cons.1 hinps
    obtain ⟨htime, hprev⟩ := pass_of_press inp q i s hgate htick hothers hbtn
    obtain ⟨hrtime, hrprev⟩ :=
      stateAfter_of_held (nextQuantity q) i (pass inp q s) rest hprev (by rwa [pass_params])
    exact ⟨hrtime.trans htime, hrprev⟩

/-- Settles O24. -/
theorem heldPressFiresOnceOnRelease : Obligations.HeldPressFiresOnceOnRelease := by
  intro s i held release hready hne hothers hheld hgate htick hbtn
  obtain ⟨q, hq⟩ := (ready_iff s).1 hready
  have hsamples : ∀ inp ∈ held, Held s.params i inp := fun inp hmem => by
    obtain ⟨hg, ht, hdown, hup⟩ := hheld inp hmem
    exact ⟨hg, ht, eq_pressed inp.btnN i hdown hup⟩
  obtain ⟨htime, hprev⟩ := stateAfter_of_first_held q i s held hothers hne hsamples
  have hparams : (stateAfter q s held).params = s.params := stateAfter_params q s held
  refine ⟨_, _, _, runPasses_eq hq held, htime, exec_pass (readyAt_stateAfter hq held) release, ?_⟩
  obtain ⟨hfired, _⟩ := pass_of_release release (nextQuantity^[held.length] q) i (stateAfter q s held)
    (hparams ▸ hgate) (hparams ▸ htick) hprev hbtn
  rw [hfired, htime, elapsed_action _ i hq.time]

/-- A press and a release of button i in two gated passes without a tick run its increment once. -/
theorem stateAfter_of_press_release (q i : Quantity) (s : State) (down up : Sample)
    (hinps : ∀ inp ∈ [down, up], gateHit s.params inp = true ∧ tickHit s.params inp = false)
    (hprev : s.prev = 0b111#3) (hdown : down.btnN = pressed i) (hup : up.btnN = 0b111#3) :
    (stateAfter q s [down, up]).time = action s.time i ∧ (stateAfter q s [down, up]).prev = 0b111#3 := by
  obtain ⟨hgate, htick⟩ := hinps down (by simp)
  obtain ⟨hgate', htick'⟩ := hinps up (by simp)
  have hparams : (pass down q s).params = s.params := pass_params down q s
  have hothers : ∀ j, j ≠ i → line s.prev j = true := fun j _ => hprev ▸ line_released j
  obtain ⟨htime, hpressed⟩ := pass_of_press down q i s hgate htick hothers hdown
  obtain ⟨htime', hprev'⟩ :=
    pass_of_release up (nextQuantity q) i (pass down q s) (hparams ▸ hgate') (hparams ▸ htick') hpressed hup
  exact ⟨htime'.trans (by rw [htime]), hprev'⟩

/-- Settles O25: two presses and releases, one after the other. -/
theorem bounceFiresTwice : Obligations.BounceFiresTwice := by
  intro s i inps hready hprev hinps hbtns
  obtain ⟨q, hq⟩ := (ready_iff s).1 hready
  obtain ⟨a, _, rfl, ha, hbtns⟩ := List.map_eq_cons_iff.1 hbtns
  obtain ⟨b, _, rfl, hb, hbtns⟩ := List.map_eq_cons_iff.1 hbtns
  obtain ⟨c, _, rfl, hc, hbtns⟩ := List.map_eq_cons_iff.1 hbtns
  obtain ⟨d, _, rfl, hd, hbtns⟩ := List.map_eq_cons_iff.1 hbtns
  obtain rfl := List.map_eq_nil_iff.1 hbtns
  obtain ⟨htime, hprev'⟩ := stateAfter_of_press_release q i s a b
    (fun inp hmem => hinps inp (List.mem_append_left [c, d] hmem)) hprev ha hb
  have hparams : (stateAfter q s [a, b]).params = s.params := stateAfter_params q s [a, b]
  obtain ⟨htime', _⟩ := stateAfter_of_press_release (nextQuantity (nextQuantity q)) i (stateAfter q s [a, b]) c d
    (fun inp hmem => hparams ▸ hinps inp (List.mem_append_right [a, b] hmem)) hprev' hc hd
  refine ⟨_, _, runPasses_eq hq [a, b, c, d], ?_⟩
  calc (stateAfter q s [a, b, c, d]).time.elapsed = (action (action s.time i) i).elapsed := by
        rw [← htime, ← htime']
        rfl
    _ = (s.time.elapsed + 2 * incrementSize i) % 43200 := by
        rw [elapsed_action _ i (action_legal _ i hq.time), elapsed_action _ i hq.time, Nat.mod_add_mod,
          Nat.add_assoc, Nat.two_mul]

/-! ### The poll window (rules R175, R196) -/

/-- The window of the high byte, in counts: the threshold times the window's length, and as many counts. -/
theorem tickHit_iff_window (p : Params) (inp : Sample) (hw : 8 ≤ p.secW) :
    tickHit p inp = true ↔ windowStart p ≤ inp.secCount % 2 ^ p.secW ∧
      inp.secCount % 2 ^ p.secW < windowStart p + windowLength p := by
  rw [tickHit_iff p inp hw, Nat.div_eq_iff (Nat.two_pow_pos _), windowStart, windowLength]
  have hpos : 0 < 2 ^ (p.secW - 8) := Nat.two_pow_pos _
  omega

/-- The window lies within the counter's range. -/
theorem windowStart_add_windowLength_le (p : Params) (hw : 8 ≤ p.secW) :
    windowStart p + windowLength p ≤ 2 ^ p.secW := by
  have hthreshold : p.secThreshold.toNat + 1 ≤ 2 ^ 8 := p.secThreshold.isLt
  calc windowStart p + windowLength p = (p.secThreshold.toNat + 1) * 2 ^ (p.secW - 8) := by
        rw [windowStart, windowLength, Nat.add_one_mul]
    _ ≤ 2 ^ 8 * 2 ^ (p.secW - 8) := Nat.mul_le_mul_right _ hthreshold
    _ = 2 ^ p.secW := by rw [← Nat.pow_add, Nat.add_sub_cancel' hw]

/-- A sequence that starts below a bound and reaches it does so at a step from below it. -/
theorem exists_first_reached (c : Nat → Nat) (bound n : Nat) (h0 : c 0 < bound) (hn : bound ≤ c n) :
    ∃ m, m + 1 ≤ n ∧ c m < bound ∧ bound ≤ c (m + 1) := by
  induction n with
  | zero => omega
  | succ n ih =>
    by_cases hreached : bound ≤ c n
    · obtain ⟨m, hm, hbelow, hat⟩ := ih hreached
      exact ⟨m, by omega, hbelow, hat⟩
    · exact ⟨n, le_rfl, Nat.lt_of_not_le hreached, hn⟩

/-- Settles O45: the first sample at or past the window's start came from below it by less than the window's
length, so it is within the window. -/
theorem pollWindowCatchesEveryCrossing : Obligations.PollWindowCatchesEveryCrossing := by
  refine ⟨fun p inp hp => ?_, fun p c n hp hstep h0 hn => ?_⟩
  · obtain ⟨hw, _⟩ := (legalParams_iff p).1 hp
    exact tickHit_iff_window p inp hw
  · obtain ⟨hw, _⟩ := (legalParams_iff p).1 hp
    obtain ⟨m, hm, hbelow, hat⟩ := exists_first_reached c (windowStart p) n h0 hn
    obtain ⟨_, hrise⟩ := hstep m
    have hend : c (m + 1) < windowStart p + windowLength p := by omega
    have hrange : c (m + 1) < 2 ^ p.secW := hend.trans_le (windowStart_add_windowLength_le p hw)
    refine ⟨m + 1, hm, fun db lines => (tickHit_iff_window p _ hw).2 ?_⟩
    rw [Nat.mod_eq_of_lt hrange]
    exact ⟨hat, hend⟩

/-- A count that has not yet come to the window does not tick, wherever the counter was cleared. -/
theorem not_tickHit_after_clear (p : Params) (inp : Sample) (count ticks : Nat) (hw : 8 ≤ p.secW)
    (hticks : ticks < windowStart p) (hcount : inp.secCount = counterAfter p count ticks true) :
    tickHit p inp = false := by
  rw [← Bool.not_eq_true, tickHit_iff_window p inp hw, hcount, counterAfter, if_pos rfl, Nat.zero_add, Nat.mod_mod]
  have hle : ticks % 2 ^ p.secW ≤ ticks := Nat.mod_le _ _
  omega

theorem secClr_not_mem_eventsAfter (q : Quantity) (s : State) (inps : List Sample)
    (hinps : ∀ inp ∈ inps, tickHit s.params inp = false) : Event.secClr ∉ eventsAfter q s inps := by
  induction inps generalizing s q with
  | nil => exact List.not_mem_nil
  | cons inp rest ih =>
    obtain ⟨htick, hrest⟩ := List.forall_mem_cons.1 hinps
    obtain ⟨_, hnot⟩ := pass_events_of_no_tick inp q s htick
    exact List.not_mem_append hnot (ih _ _ (by rwa [pass_params]))

/-- Settles O46. -/
theorem noDoubleFireAfterClear : Obligations.NoDoubleFireAfterClear := by
  intro s inp inps hready htick hinps
  obtain ⟨q, hq⟩ := (ready_iff s).1 hready
  obtain ⟨hw, _⟩ := (legalParams_iff _).1 hq.params
  have hquiet : ∀ x ∈ inps, tickHit s.params x = false := fun x hx => by
    obtain ⟨ticks, hticks, hcount⟩ := hinps x hx
    exact not_tickHit_after_clear s.params x inp.secCount ticks hw hticks hcount
  obtain ⟨_, hhead⟩ := pass_events_of_tick inp q s htick
  exact ⟨_, _, _, exec_pass hq inp, List.mem_of_head? hhead, runPasses_eq (readyAt_pass hq inp) inps,
    secClr_not_mem_eventsAfter _ _ inps (by rwa [pass_params])⟩

end Sys2Proof.Passes

/-! PROOFS about the display's events (rules R122 to R132): the order of a display step's events, what the banks show
along a pass, and that registers and devices follow the events. -/

namespace Sys2Proof.DisplayEvents

open Sys2Proof.Machine Sys2Proof.StateWrites Sys2Proof.Encoding Sys2Proof.DisplayDriver Sys2Proof.Passes

/-! ### The encoder (rule R122) -/

theorem encodePattern_bit_iff (v k : Nat) (hk : k < 16) :
    (encodePattern v).getLsbD k = true ↔ k = v % 10 ∨ (v / 10 ≠ 0 ∧ k = 9 + v / 10) := by
  rw [encodePattern_getLsbD v k hk]
  simp only [Bool.or_eq_true, Bool.and_eq_true, decide_eq_true_iff]

/-- Equal patterns have the same ones bit and the same tens bit, if any. -/
theorem encodePattern_injective (v w : Nat) (hv : v ≤ 59) (hw : w ≤ 59) (h : encodePattern v = encodePattern w) :
    v = w := by
  have hbit (k : Nat) (hk : k < 16) :
      k = v % 10 ∨ (v / 10 ≠ 0 ∧ k = 9 + v / 10) ↔ k = w % 10 ∨ (w / 10 ≠ 0 ∧ k = 9 + w / 10) := by
    rw [← encodePattern_bit_iff v k hk, ← encodePattern_bit_iff w k hk, h]
  have hones := hbit (v % 10) (by omega)
  have htens := hbit (9 + v / 10) (by omega)
  have htens' := hbit (9 + w / 10) (by omega)
  omega

/-- Settles O31, field by field of the pattern. -/
theorem encoderIsInjective : Obligations.EncoderIsInjective := by
  refine ⟨fun v hv => ⟨⟨v % 10, by omega, ?_, fun j hj hbit => ?_, rfl⟩, fun j hlow hhigh hbit => ?_,
    ⟨fun hclear => ?_, fun hsmall j hlow hhigh => ?_⟩, encodePattern_bit_fifteen v hv⟩, encodePattern_injective⟩
  · exact (encodePattern_bit_iff v _ (by omega)).2 (.inl rfl)
  · have hcases := (encodePattern_bit_iff v j (by omega)).1 hbit
    omega
  · have hcases := (encodePattern_bit_iff v j (by omega)).1 hbit
    omega
  · by_contra hbig
    have hset := (encodePattern_bit_iff v (9 + v / 10) (by omega)).2 (.inr ⟨by omega, rfl⟩)
    rw [hclear _ (by omega) (by omega)] at hset
    cases hset
  · rw [← Bool.not_eq_true, encodePattern_bit_iff v j (by omega)]
    omega

/-! ### BANK_SWITCH on any pair (rule R127; log entry 13) -/

/-- Settles O36. -/
theorem bankSwitchRunsOnAnyPair : Obligations.BankSwitchRunsOnAnyPair := by
  intro s old new hready
  obtain ⟨q, hq⟩ := (ready_iff s).1 hready
  refine ⟨emitAll s (bankSwitchEvents old new), hq.exec (.bankSwitch old new) (by simp) rfl, fun r => ?_, ?_⟩
  · rw [emitAll_out, line_bankSwitch]
  · rw [emitAll_eq, outputsAfter_bankSwitch, devicesAfter_bankSwitch]
    rfl

/-! ### The order of a display step's events (rule R129) -/

/-- In a list cut in two, what occurs only in front comes before what occurs only behind. -/
theorem index_lt_of_split {front back : List Event} {e f : Event} {i j : Nat} (he : e ∉ back) (hf : f ∉ front)
    (hi : (front ++ back)[i]? = some e) (hj : (front ++ back)[j]? = some f) : i < j := by
  have hfront : i < front.length := by
    by_contra hge
    rw [List.getElem?_append_right (Nat.le_of_not_lt hge)] at hi
    exact he (List.mem_of_getElem? hi)
  have hback : front.length ≤ j := by
    by_contra hlt
    rw [List.getElem?_append_left (Nat.lt_of_not_le hlt)] at hj
    exact hf (List.mem_of_getElem? hj)
  omega

/-- SERIALIZE drives the data line and the clock line only. -/
theorem mem_serializeEvents {p : Pattern} {e : Event} (h : e ∈ serializeEvents p) :
    ∃ b, e = .data b ∨ e = .clk b := by
  obtain ⟨k, _, hmem⟩ := List.mem_flatMap.1 h
  rcases List.mem_cons.1 hmem with hdata | hclk
  · exact ⟨_, .inl hdata⟩
  · rcases List.mem_pair.1 hclk with hlow | hhigh
    · exact ⟨_, .inr hlow⟩
    · exact ⟨_, .inr hhigh⟩

theorem stb_not_mem_serializeEvents (p : Pattern) (b : Bool) : Event.stb b ∉ serializeEvents p := fun h => by
  obtain ⟨_, h | h⟩ := mem_serializeEvents h <;> cases h

theorem bank_not_mem_serializeEvents (p : Pattern) (q : Quantity) (b : Bool) :
    Event.bank q b ∉ serializeEvents p := fun h => by
  obtain ⟨_, h | h⟩ := mem_serializeEvents h <;> cases h

theorem bank_not_mem_beforeSwitch (p : Pattern) (q : Quantity) (b : Bool) :
    Event.bank q b ∉ serializeEvents p ++ strobeEvents :=
  List.not_mem_append (bank_not_mem_serializeEvents p q b) (by simp [strobeEvents])

/-- One rising clock edge per bit (rule R124). -/
theorem count_clk_shiftBits (bs : List Bool) : (bs.flatMap shiftBitEvents).count (.clk true) = bs.length := by
  induction bs with
  | nil => rfl
  | cons b bs ih =>
    have hone : (shiftBitEvents b).count (.clk true) = 1 := by cases b <;> rfl
    rw [List.flatMap_cons, List.count_append, hone, ih, List.length_cons, Nat.add_comm]

theorem count_clk_displayEvents (old new : Quantity) (p : Pattern) :
    (displayEvents old new p).count (.clk true) = 16 := by
  rw [displayEvents, serializeEvents_eq, List.count_append, List.count_append, count_clk_shiftBits]
  rfl

/-- Settles O38: three cuts of the 52 events, after SERIALIZE, after STROBE and between the two bank events. -/
theorem displayEventsAreOrdered : Obligations.DisplayEventsAreOrdered := by
  intro s hready hnone
  obtain ⟨q, hq⟩ := (ready_iff s).1 hready
  have hevents : (dispStep q s).events =
      displayEvents q (nextQuantity q) (encodePattern (field s.time (nextQuantity q))) := by
    rw [dispStep_eq, hnone, List.nil_append]
  refine ⟨dispStep q s, hq.exec .dispStep (by simp) rfl, ?_⟩
  rw [hevents]
  refine ⟨count_clk_displayEvents _ _ _, fun i j hi hj => ?_, fun i j r hi hj => ?_, fun i j r r' hi hj => ?_⟩
  · rw [displayEvents, List.append_assoc] at hi hj
    exact index_lt_of_split (by simp [strobeEvents, bankSwitchEvents]) (stb_not_mem_serializeEvents _ _) hi hj
  · rw [displayEvents] at hi hj
    exact index_lt_of_split (by simp [bankSwitchEvents]) (bank_not_mem_beforeSwitch _ _ _) hi hj
  · rw [displayEvents, bankSwitchEvents, List.append_cons] at hi hj
    exact index_lt_of_split (by simp) (List.not_mem_append (bank_not_mem_beforeSwitch _ _ _) (by simp)) hi hj

/-! ### Registers and devices follow the events (rules R28, R58, R132) -/

/-- SEC_CLR drives no register and no device (rule R32). -/
@[simp] theorem outputsAfter_pollEvents (o : Outputs) (tick : Bool) : outputsAfter o (pollEvents tick) = o := by
  cases tick <;> rfl

@[simp] theorem devicesAfter_pollEvents (o : Outputs) (d : Devices) (tick : Bool) :
    devicesAfter o d (pollEvents tick) = d := by
  cases tick <;> rfl

/-- From s to t the events es have been emitted: they are the new end of the list, and the registers and the devices
are where they lead. -/
structure Emits (s t : State) (es : List Event) : Prop where
  events : t.events = s.events ++ es
  out : t.out = outputsAfter s.out es
  devices : t.devices = devicesAfter s.out s.devices es

theorem emits_nil {s t : State} (hevents : t.events = s.events) (hout : t.out = s.out)
    (hdevices : t.devices = s.devices) : Emits s t [] :=
  ⟨hevents.trans (List.append_nil _).symm, hout, hdevices⟩

theorem emits_emitAll (s : State) (es : List Event) : Emits s (emitAll s es) es :=
  ⟨emitAll_events s es, emitAll_out s es, emitAll_devices s es⟩

theorem emits_secPoll (inp : Sample) (s : State) :
    Emits s (secPoll inp s) (pollEvents (tickHit s.params inp)) := by
  rw [secPoll_eq]
  exact ⟨rfl, (outputsAfter_pollEvents _ _).symm, (devicesAfter_pollEvents _ _ _).symm⟩

theorem emits_dispStep (q : Quantity) (s : State) :
    Emits s (dispStep q s)
      (displayEvents q (nextQuantity q) (encodePattern (field s.time (nextQuantity q)))) := by
  obtain ⟨hevents, hout, hdevices⟩ := emits_emitAll
    (notePattern (setCursor s (nextQuantity q)) (encodePattern (field s.time (nextQuantity q))))
    (displayEvents q (nextQuantity q) (encodePattern (field s.time (nextQuantity q))))
  rw [notePattern_events, setCursor_events] at hevents
  rw [notePattern_out, setCursor_out] at hout
  rw [notePattern_out, setCursor_out, notePattern_devices, setCursor_devices] at hdevices
  exact ⟨hevents, hout, hdevices⟩

/-- A pass begins its event list anew, so it emits its whole list. -/
theorem emits_pass (inp : Sample) (q : Quantity) (s : State) :
    Emits (beginPass s) (pass inp q s) (pass inp q s).events where
  events := by rw [beginPass_events, List.nil_append]
  out := by
    rw [beginPass_out, pass_events, outputsAfter_append, outputsAfter_pollEvents, outputsAfter_display, pass_out]
  devices := by
    rw [beginPass_out, beginPass_devices, pass_events, devicesAfter_append, outputsAfter_pollEvents,
      devicesAfter_pollEvents, devicesAfter_display, pass_devices]

/-- Every operation but PASS appends to the list what it emits; most emit nothing. -/
theorem meaningAt_emits (i : Instr) (q : Quantity) (s : State) (hpass : ∀ inp, i ≠ .pass inp) :
    ∃ es, Emits s (meaningAt i q s) es := by
  cases i with
  | pass inp => exact absurd rfl (hpass inp)
  | secPoll inp => exact ⟨_, emits_secPoll inp s⟩
  | dispStep => exact ⟨_, emits_dispStep q s⟩
  | shiftBit b => exact ⟨_, emits_emitAll s (shiftBitEvents b)⟩
  | serialize p => exact ⟨_, emits_emitAll s (serializeEvents p)⟩
  | strobe => exact ⟨_, emits_emitAll s strobeEvents⟩
  | bankSwitch old new => exact ⟨_, emits_emitAll s (bankSwitchEvents old new)⟩
  | edge j inp =>
    rw [meaningAt, edge_eq]
    exact ⟨[], emits_nil rfl rfl rfl⟩
  | dbPass inp =>
    rw [meaningAt, dbPass_eq]
    exact ⟨[], emits_nil rfl rfl rfl⟩
  | _ => exact ⟨[], emits_nil rfl rfl rfl⟩

/-- Settles O54. -/
theorem registersHoldLastDrivenLevel : Obligations.RegistersHoldLastDrivenLevel := by
  intro i s t hr h
  rcases exec_next i s t h with ⟨hreset, _⟩ | ⟨_, _, _, _, q, _, rfl⟩
  · exact absurd hreset hr
  · by_cases hpass : ∃ inp, i = .pass inp
    · obtain ⟨inp, rfl⟩ := hpass
      obtain ⟨_, hout, hdevices⟩ := emits_pass inp q s
      exact ⟨_, fun _ => rfl, fun hnot => absurd rfl (hnot inp), hout, hdevices⟩
    · obtain ⟨es, hevents, hout, hdevices⟩ := meaningAt_emits i q s (not_exists.1 hpass)
      exact ⟨es, fun h => absurd h hpass, fun _ => hevents, hout, hdevices⟩

/-! ### A pass's events up to its bank switch (rules R127, R128) -/

/-- A pass's events before its two bank events; `pass_events_eq_lead` ties it to the model. -/
def leadEvents (inp : Sample) (q : Quantity) (s : State) : List Event :=
  pollEvents (tickHit s.params inp) ++ (serializeEvents (renderedPattern s inp q) ++ strobeEvents)

theorem pass_events_eq_lead (inp : Sample) (q : Quantity) (s : State) :
    (pass inp q s).events = leadEvents inp q s ++ bankSwitchEvents q (nextQuantity q) := by
  simp only [pass_events, displayEvents, leadEvents, List.append_assoc]

theorem bank_not_mem_leadEvents (inp : Sample) (q r : Quantity) (s : State) (b : Bool) :
    Event.bank r b ∉ leadEvents inp q s := by
  refine List.not_mem_append ?_ (bank_not_mem_beforeSwitch _ r b)
  cases tickHit s.params inp <;> simp [pollEvents]

/-- Events that drive no bank line leave the banks as they are. -/
theorem bankEnabled_outputsAfter (o : Outputs) (es : List Event) (r : Quantity) (h : ∀ q b, Event.bank q b ∉ es) :
    bankEnabled (outputsAfter o es) r = bankEnabled o r := by
  induction es generalizing o with
  | nil => rfl
  | cons e es ih =>
    have hrest : ∀ q b, Event.bank q b ∉ es := fun q b hmem => h q b (List.mem_cons_of_mem e hmem)
    rw [outputsAfter_cons, ih _ hrest]
    cases e with
    | bank q b => exact absurd List.mem_cons_self (h q b)
    | _ => rfl

/-- Along the leading events the banks are as they were before the pass. -/
theorem bankEnabled_take_leadEvents (inp : Sample) (q r : Quantity) (s : State) (k : Nat) :
    bankEnabled (outputsAfter s.out ((leadEvents inp q s).take k)) r = bankEnabled s.out r :=
  bankEnabled_outputsAfter _ _ r fun p b hmem => bank_not_mem_leadEvents inp q p s b (List.mem_of_mem_take hmem)

theorem bankEnabled_leadEvents (inp : Sample) (q r : Quantity) (s : State) :
    bankEnabled (outputsAfter s.out (leadEvents inp q s)) r = bankEnabled s.out r :=
  bankEnabled_outputsAfter _ _ r fun p b => bank_not_mem_leadEvents inp q p s b

/-- Before the bank switch the devices already hold the pattern of the pass. -/
theorem devicesAfter_leadEvents (inp : Sample) (q : Quantity) (s : State) :
    devicesAfter s.out s.devices (leadEvents inp q s) = (pass inp q s).devices := by
  simp [leadEvents, devicesAfter_append]

/-- The points of a list that ends in two events: within what comes before them, between them, or after them. -/
theorem take_append_pair (es : List Event) (e f : Event) (k : Nat) :
    (es ++ [e, f]).take k = es.take k ∨ (es ++ [e, f]).take k = es ++ [e] ∨ (es ++ [e, f]).take k = es ++ [e, f] := by
  rcases Nat.lt_trichotomy k (es.length + 1) with hbefore | rfl | hafter
  · exact .inl (List.take_append_of_le_length (Nat.le_of_lt_succ hbefore))
  · exact .inr (.inl (List.take_length_add_append 1))
  · refine .inr (.inr (List.take_of_length_le ?_))
    rw [List.length_append]
    exact hafter

/-! ### The banks along a pass (rule R30) -/

/-- Disabling the bank of q leaves none, whether it was enabled or none was. -/
theorem noBank_of_disable_boundary {o : Outputs} {q : Quantity} (h : NoBank o ∨ OnlyBank o q) :
    NoBank (driveOutputs o (.bank q true)) := by
  rcases h with hnone | honly
  · intro r
    rw [bankEnabled_driveOutputs_bank, hnone r, ite_eq_right_iff]
    exact fun _ => rfl
  · exact noBank_of_disable o q honly

/-- At a boundary no bank but the one the cursor names is enabled. -/
theorem banks_of_boundary {s : State} {q : Quantity} (h : BanksAtBoundary s) (hq : s.cursor = q.code) :
    NoBank s.out ∨ OnlyBank s.out q := by
  rcases h with hnone | ⟨r, hr, honly⟩
  · exact .inl hnone
  · rw [hq, Quantity_ofCode_code, Option.some_inj] at hr
    exact .inr (hr ▸ honly)

theorem atMostOneBank_of_noBank {o : Outputs} (h : NoBank o) : AtMostOneBank o := by
  intro q _ hq
  rw [h q] at hq
  cases hq

theorem atMostOneBank_of_onlyBank {o : Outputs} {q : Quantity} (h : OnlyBank o q) : AtMostOneBank o := by
  intro r r' hr hr'
  rw [h r, decide_eq_true_iff] at hr
  rw [h r', decide_eq_true_iff] at hr'
  exact hr.trans hr'.symm

/-- At every point of a pass: the banks of the boundary, then none, then only the new one, with the devices as the
pass leaves them. -/
theorem banks_along_pass (inp : Sample) (q : Quantity) (s : State) (h : NoBank s.out ∨ OnlyBank s.out q) (k : Nat) :
    (∀ r, bankEnabled (outputsAfter s.out ((pass inp q s).events.take k)) r = bankEnabled s.out r) ∨
      NoBank (outputsAfter s.out ((pass inp q s).events.take k)) ∨
      (OnlyBank (outputsAfter s.out ((pass inp q s).events.take k)) (nextQuantity q) ∧
        devicesAfter s.out s.devices ((pass inp q s).events.take k) = (pass inp q s).devices) := by
  have hlead : NoBank (outputsAfter s.out (leadEvents inp q s)) ∨
      OnlyBank (outputsAfter s.out (leadEvents inp q s)) q := by
    simpa only [NoBank, OnlyBank, bankEnabled_leadEvents] using h
  have hoff := noBank_of_disable_boundary hlead
  rw [pass_events_eq_lead, bankSwitchEvents]
  rcases take_append_pair (leadEvents inp q s) (.bank q true) (.bank (nextQuantity q) false) k with hk | hk | hk
  · rw [hk]
    exact .inl fun r => bankEnabled_take_leadEvents inp q r s k
  · rw [hk, outputsAfter_append]
    exact .inr (.inl hoff)
  · rw [hk, outputsAfter_append, devicesAfter_append, devicesAfter_leadEvents]
    exact .inr (.inr ⟨onlyBank_of_enable _ _ hoff, rfl⟩)

/-- After a pass from a boundary only the bank its cursor names is enabled. -/
theorem onlyBank_pass (inp : Sample) (q : Quantity) (s : State) (h : NoBank s.out ∨ OnlyBank s.out q) :
    OnlyBank (pass inp q s).out (nextQuantity q) := by
  have hswitch : OnlyBank (outputsAfter s.out (bankSwitchEvents q (nextQuantity q))) (nextQuantity q) :=
    onlyBank_of_enable _ _ (noBank_of_disable_boundary h)
  intro r
  rw [← hswitch r, bankEnabled, bankEnabled, pass_out, outputsAfter_bankSwitch]

/-- Settles O55. -/
theorem neverTwoBanksInAPass : Obligations.NeverTwoBanksInAPass := by
  intro s inp hready hbanks
  obtain ⟨q, hq⟩ := (ready_iff s).1 hready
  have hbefore := banks_of_boundary hbanks hq.cursor
  refine ⟨pass inp q s, nextQuantity q, exec_pass hq inp, pass_cursor inp q s, onlyBank_pass inp q s hbefore,
    fun k => ?_⟩
  rcases banks_along_pass inp q s hbefore k with hsame | hnone | ⟨honly, _⟩
  · have hboundary : AtMostOneBank s.out := hbefore.elim atMostOneBank_of_noBank atMostOneBank_of_onlyBank
    simpa only [AtMostOneBank, hsame] using hboundary
  · exact atMostOneBank_of_noBank hnone
  · exact atMostOneBank_of_onlyBank honly

/-! ### What the banks show along a pass (rule R132) -/

theorem lit_of_enabled {o : Outputs} {q : Quantity} (d : Devices) (h : bankEnabled o q = true) :
    lit o d q = some d.latch := if_pos h

theorem lit_eq_some {o : Outputs} {d : Devices} {q : Quantity} {pat : Pattern} (h : lit o d q = some pat) :
    bankEnabled o q = true ∧ pat = d.latch := by
  unfold lit at h
  split at h
  · next henabled => exact ⟨henabled, (Option.some.inj h).symm⟩
  · cases h

/-- The bank a pass turns to is off at the boundary before it. -/
theorem newBank_off (o : Outputs) (q : Quantity) (h : NoBank o ∨ OnlyBank o q) :
    bankEnabled o (nextQuantity q) = false := by
  rcases h with hnone | honly
  · exact hnone _
  · rw [honly, decide_eq_false (nextQuantity_ne q)]

/-- Settles O56: the new bank is lit at the last point only, when the latches hold the pass's own pattern. -/
theorem newBankShowsItsOwnPattern : Obligations.NewBankShowsItsOwnPattern := by
  intro s inp hready hbanks
  obtain ⟨q, hq⟩ := (ready_iff s).1 hready
  have hbefore := banks_of_boundary hbanks hq.cursor
  have hafter : bankEnabled (pass inp q s).out (nextQuantity q) = true := by
    rw [onlyBank_pass inp q s hbefore, decide_eq_true rfl]
  refine ⟨pass inp q s, nextQuantity q, exec_pass hq inp, pass_cursor inp q s, ?_, fun k pat hlit => ?_⟩
  · rw [lit_of_enabled _ hafter, pass_latch]
  · obtain ⟨henabled, rfl⟩ := lit_eq_some hlit
    rcases banks_along_pass inp q s hbefore k with hsame | hnone | ⟨_, hdevices⟩
    · rw [hsame, newBank_off _ _ hbefore] at henabled
      cases henabled
    · rw [hnone] at henabled
      cases henabled
    · rw [hdevices, pass_latch]

/-- Settles O57: the point is right before the bank switch. -/
theorem previousBankShowsNewPatternBriefly : Obligations.PreviousBankShowsNewPatternBriefly := by
  intro s inp old hready hcursor honly
  obtain ⟨hparams, htime, _⟩ := hready.cases
  have hold : bankEnabled (outputsAfter s.out (leadEvents inp old s)) old = true := by
    rw [bankEnabled_leadEvents, honly, decide_eq_true rfl]
  refine ⟨pass inp old s, (leadEvents inp old s).length, exec_pass ⟨hparams, htime, hcursor⟩ inp, ?_, ?_⟩
  · rw [pass_events_eq_lead, List.length_append]
    rfl
  · rw [pass_events_eq_lead, List.take_left, lit_of_enabled _ hold, devicesAfter_leadEvents, pass_latch]

end Sys2Proof.DisplayEvents

/-! PROOFS about steps (rules R8, R172, R210): what a step runs, what it refuses, what RESET leaves, and the
invariants every step keeps. -/

namespace Sys2Proof.Steps

open Sys2Proof.Machine Sys2Proof.StateWrites Sys2Proof.Encoding Sys2Proof.OperationWords Sys2Proof.ControlLoop
open Sys2Proof.ElapsedTime Sys2Proof.Passes Sys2Proof.DisplayEvents

/-! ### What a step applies (log entries 3 and 4) -/

theorem nextStimulus_of_cons {s : State} {x : Stimulus} {rest : List Stimulus} (h : s.stimulus = x :: rest) :
    nextStimulus s = (x, { s with stimulus := rest }) := by
  unfold nextStimulus
  rw [h]

theorem nextStimulus_of_nil {s : State} (h : s.stimulus = []) :
    nextStimulus s = (.env (freeDraw s.draws), { s with draws := s.draws + 1 }) := by
  unfold nextStimulus
  rw [h]

theorem step_of_cons {s : State} {x : Stimulus} {rest : List Stimulus} (h : s.stimulus = x :: rest) :
    step s = applyStimulus x { s with stimulus := rest } := by
  rw [step, nextStimulus_of_cons h]

theorem step_of_nil {s : State} (h : s.stimulus = []) :
    step s = applyStimulus (.env (freeDraw s.draws)) { s with draws := s.draws + 1 } := by
  rw [step, nextStimulus_of_nil h]

theorem runWord_ok {w : Nat} {s : State} {i : Instr} (h : decode s.params w = .ok i) : runWord w s = exec i s := by
  rw [runWord, h]

theorem runWord_error {w : Nat} {s : State} {e : DecodeError} (h : decode s.params w = .error e) :
    runWord w s = .refused (.undecodable e) := by
  rw [runWord, h]

theorem drawStep_none {d : Draw} (s : State) (h : d.rst = none) : drawStep d s = exec (.pass d.inp) s := by
  rw [drawStep, h]
  rfl

theorem drawStep_zero {d : Draw} (s : State) (h : d.rst = some 0) : drawStep d s = exec .reset s := by
  rw [drawStep, h]
  rfl

theorem drawStep_succ {d : Draw} (s : State) {k : Nat} (h : d.rst = some (k + 1)) :
    drawStep d s = abandonedPass (k + 1) d.inp s := by
  rw [drawStep, h]

/-- Settles O8. -/
theorem stepRunsDecodedOperation : Obligations.StepRunsDecodedOperation :=
  fun _ _ _ hqueue => ⟨fun _ hok => (step_of_cons hqueue).trans (runWord_ok hok),
    fun _ herror => (step_of_cons hqueue).trans (runWord_error herror)⟩

/-- Settles O9. -/
theorem stepRunsPassOrReset : Obligations.StepRunsPassOrReset :=
  fun _ _ _ hqueue => ⟨fun hnone => (step_of_cons hqueue).trans (drawStep_none _ hnone),
    fun hzero => (step_of_cons hqueue).trans (drawStep_zero _ hzero)⟩

/-- Settles O10: the free draw, put in the queue, is what the step takes from it. -/
theorem stepDrawsWhenQueueIsEmpty : Obligations.StepDrawsWhenQueueIsEmpty := by
  intro s hempty
  have hqueued : step { s with stimulus := [.env (freeDraw s.draws)], draws := s.draws + 1 } =
      applyStimulus (.env (freeDraw s.draws)) { s with stimulus := [], draws := s.draws + 1 } := step_of_cons rfl
  rw [hqueued, step_of_nil hempty, ← hempty]

/-! ### What is refused (rules R37, R83, R176, R194(b)) -/

theorem exec_refused_of_not_ready (i : Instr) (s : State) (hr : i ≠ .reset) (h : ¬ Ready s) :
    ∃ r, exec i s = .refused r := by
  cases hrun : runnable i with
  | false => exact (exec_not_runnable i s hrun).elim (fun he => ⟨_, he⟩) fun he => ⟨_, he⟩
  | true =>
    rw [exec_eq_guarded i s hr hrun]
    cases hp : legalParams s.params with
    | false => exact ⟨_, guarded_illegal s _ hp⟩
    | true =>
      have hill : wellFormed s = false := Bool.eq_false_iff.2 fun hwf => h ⟨hp, hwf⟩
      exact ⟨_, guarded_illFormed s _ hp hill⟩

/-- A state rule R37 calls ill-formed is not ready. -/
theorem not_ready_of_illFormed (s : State)
    (h : 59 < s.time.second.toNat ∨ 59 < s.time.minute.toNat ∨ s.time.hour.toNat = 0 ∨ 12 < s.time.hour.toNat ∨
      s.cursor = 0b11#2) : ¬ Ready s := by
  intro hready
  obtain ⟨_, htime, q, hq⟩ := hready.cases
  obtain ⟨hsec, hmin, hlow, hhigh⟩ := (legalTime_iff s.time).1 htime
  have hcode : s.cursor ≠ 0b11#2 := by
    rw [hq]
    cases q <;> decide
  simp only [hcode, or_false] at h
  omega

/-- A part with a parameter outside rules R7 and R176 is not ready. -/
theorem not_ready_of_illegal (s : State)
    (h : s.params.secThreshold = 0#8 ∨ s.params.secW < 8 ∨ s.params.dbW = 0) : ¬ Ready s := by
  rintro ⟨hparams, _⟩
  obtain ⟨hsec, hthreshold, hdb⟩ := (legalParams_iff _).1 hparams
  simp only [hthreshold, false_or] at h
  omega

theorem exec_encode_above (v : BitVec 6) (s : State) (h : 59 < v.toNat) :
    exec (.encode v) s = .refused .operandOutOfRange :=
  if_neg (by simpa [valueInRange] using h)

theorem exec_serialize_bit_fifteen (p : Pattern) (s : State) (h : p.getLsbD 15 = true) :
    exec (.serialize p) s = .refused .operandOutOfRange :=
  if_neg (by simp [patternInRange, h])

/-- Settles O44. -/
theorem reservedAndIllFormedAreRefused : Obligations.ReservedAndIllFormedAreRefused :=
  ⟨fun _ => rfl, fun i s hr hill => exec_refused_of_not_ready i s hr (not_ready_of_illFormed s hill),
    fun i s hr hillegal => exec_refused_of_not_ready i s hr (not_ready_of_illegal s hillegal),
    exec_encode_above, exec_serialize_bit_fifteen, decode_of_excess, decode_unused_button, decode_unused_cursor⟩

/-! ### Reset (rules R210, R211, R213) -/

theorem eq_of_exec_reset {s t : State} (h : exec .reset s = .next t) : t = resetBlock { s with events := [] } := by
  rw [exec_reset] at h
  injection h with h
  exact h.symm

/-- RESET's registers do not depend on the state it runs from. -/
theorem sameBlock_resetBlock (s s' : State) : SameBlock (resetBlock s) (resetBlock s') := ⟨rfl, rfl, rfl, rfl⟩

/-- Settles O47. -/
theorem resetGivesTheSameState : Obligations.ResetGivesTheSameState := by
  refine ⟨fun s => ⟨_, exec_reset s, exec_reset _, ?_⟩, fun s s' t t' h h' => ?_, fun s t p h => ?_⟩
  · exact ⟨rfl, rfl, rfl, rfl, rfl, rfl, rfl, rfl, rfl, rfl, rfl, rfl, rfl, rfl, rfl⟩
  · rw [eq_of_exec_reset h, eq_of_exec_reset h']
    exact sameBlock_resetBlock _ _
  · rw [eq_of_exec_reset h]
    exact ⟨rfl, rfl, rfl, rfl⟩

/-- An abandoned pass leaves RESET's registers and its first events, which the devices have seen. -/
theorem abandonAfter_leaves (s s' : State) (es : List Event) :
    SameBlock (resetBlock s') (abandonAfter s es) ∧ (abandonAfter s es).events = es ∧
      (abandonAfter s es).transient = Transient.clear ∧
      (abandonAfter s es).devices = devicesAfter s.out s.devices es ∧ (abandonAfter s es).params = s.params ∧
      (abandonAfter s es).stimulus = s.stimulus ∧ (abandonAfter s es).draws = s.draws := by
  rw [abandonAfter_eq]
  exact ⟨⟨rfl, rfl, rfl, rfl⟩, rfl, rfl, rfl, rfl, rfl, rfl⟩

/-- Settles O48. -/
theorem abandonedPassLeavesResetState : Obligations.AbandonedPassLeavesResetState := by
  intro s d rest k hready hqueue hrst
  obtain ⟨q, hparams, htime, hcursor⟩ := (ready_iff s).1 hready
  have hrest : ReadyAt { s with stimulus := rest } q := ⟨hparams, htime, hcursor⟩
  have hstep : step s = .next (abandonAfter { s with stimulus := rest }
      ((pass d.inp q { s with stimulus := rest }).events.take (k + 1))) := by
    rw [step_of_cons hqueue]
    exact (drawStep_succ _ hrst).trans (abandonedPass_of_ready (k + 1) d.inp _ q hparams htime hcursor)
  exact ⟨_, _, _, exec_pass hrest d.inp, exec_reset s, hstep, abandonAfter_leaves _ _ _⟩

/-- The part's parameters are legal: its threshold is one more than a number (log entry 1). -/
theorem legalParams_part : legalParams Params.part = true := by
  refine (legalParams_iff _).2 ⟨by decide, fun hzero => ?_, by decide⟩
  exact Fin.succ_ne_zero _ (congrArg BitVec.toFin hzero)

/-- Settles O49. -/
theorem resetStateHoldsResetValues : Obligations.ResetStateHoldsResetValues :=
  ⟨fun _ => ⟨rfl, rfl, rfl, rfl, rfl, rfl, rfl, rfl, rfl, rfl⟩, rfl,
    (ready_iff _).2 ⟨.hours, readyAt_resetOf Params.part legalParams_part⟩⟩

/-! ### Every step keeps the state well formed (rules R22, R37) -/

theorem meaningAt_params (i : Instr) (q : Quantity) (s : State) : (meaningAt i q s).params = s.params := by
  cases i with
  | edge j inp => rw [meaningAt, edge_eq]
  | dbPass inp => rw [meaningAt, dbPass_eq]
  | dispStep => rw [meaningAt, dispStep_eq]
  | _ => simp [meaningAt, gateCheck]

/-- The cursor stays on a quantity: where it moves, it moves to the successor. -/
theorem meaningAt_cursor_code (i : Instr) (q : Quantity) (s : State) (hq : s.cursor = q.code) :
    ∃ r : Quantity, (meaningAt i q s).cursor = r.code := by
  cases i with
  | pass inp => exact ⟨nextQuantity q, pass_cursor inp q s⟩
  | dispStep => exact ⟨nextQuantity q, dispStep_cursor q s⟩
  | _ => exact ⟨q, (meaningAt_cursor _ q s (by simp) (by simp)).trans hq⟩

theorem meaningAt_wellFormed (i : Instr) (q : Quantity) (s : State) (htime : legalTime s.time = true)
    (hq : s.cursor = q.code) : wellFormed (meaningAt i q s) = true := by
  refine (wellFormed_iff _).2 ⟨?_, meaningAt_cursor_code i q s hq⟩
  rw [meaningAt_time]
  exact foldl_action_legal _ _ htime

/-- What a step keeps of its state, whichever stimulus it applies. -/
def KeepsWellFormed (s t : State) : Prop := wellFormed t = true ∧ t.params = s.params

theorem keepsWellFormed_abandonAfter (s : State) (es : List Event) : KeepsWellFormed s (abandonAfter s es) := by
  rw [abandonAfter_eq]
  exact ⟨rfl, rfl⟩

theorem keepsWellFormed_exec {i : Instr} {s t : State} (h : exec i s = .next t) : KeepsWellFormed s t := by
  rcases exec_next i s t h with ⟨_, rfl⟩ | ⟨_, _, _, htime, q, hq, rfl⟩
  · exact keepsWellFormed_abandonAfter s []
  · exact ⟨meaningAt_wellFormed i q s htime hq, meaningAt_params i q s⟩

theorem keepsWellFormed_drawStep {d : Draw} {s t : State} (h : drawStep d s = .next t) : KeepsWellFormed s t := by
  rcases hrst : d.rst with _ | _ | k
  · rw [drawStep_none s hrst] at h
    exact keepsWellFormed_exec h
  · rw [drawStep_zero s hrst] at h
    exact keepsWellFormed_exec h
  · rw [drawStep_succ s hrst] at h
    obtain ⟨_, _, q, _, rfl⟩ := guarded_next _ _ _ h
    exact keepsWellFormed_abandonAfter s _

theorem keepsWellFormed_applyStimulus {x : Stimulus} {s t : State} (h : applyStimulus x s = .next t) :
    KeepsWellFormed s t := by
  cases x with
  | env d => exact keepsWellFormed_drawStep h
  | op w =>
    cases hdecode : decode s.params w with
    | ok i => exact keepsWellFormed_exec ((runWord_ok hdecode).symm.trans h)
    | error e => cases (runWord_error hdecode).symm.trans h

/-- Taking a stimulus from the supply writes no parameter. -/
theorem nextStimulus_params (s : State) : (nextStimulus s).2.params = s.params := by
  cases hqueue : s.stimulus with
  | nil => rw [nextStimulus_of_nil hqueue]
  | cons x rest => rw [nextStimulus_of_cons hqueue]

theorem step_keeps_wellFormed {s t : State} (h : step s = .next t) : KeepsWellFormed s t := by
  obtain ⟨hwf, hparams⟩ := keepsWellFormed_applyStimulus h
  exact ⟨hwf, hparams.trans (nextStimulus_params s)⟩

/-- Settles O51: a step only answers from a well-formed state, or by a reset. -/
theorem stepKeepsWellFormed : Obligations.StepKeepsWellFormed :=
  fun _ _ _ h => step_keeps_wellFormed h

/-! ### The boundary invariant (rules R27, R30, R37) -/

theorem noBank_reset : NoBank Outputs.reset := by
  intro r
  cases r <;> rfl

/-- A reset, at a boundary or within a pass, leaves a boundary. -/
theorem boundary_abandonAfter (s : State) (es : List Event)
    (hsupply : ∀ x ∈ s.stimulus, passOrReset s.params x = true) : Boundary (abandonAfter s es) := by
  rw [abandonAfter_eq]
  exact ⟨rfl, .inl noBank_reset, rfl, rfl, rfl, hsupply⟩

/-- A pass from a boundary leaves a boundary, with the new bank enabled. -/
theorem boundary_pass {s : State} {q : Quantity} (h : Boundary s) (hq : s.cursor = q.code) (inp : Sample) :
    Boundary (pass inp q s) where
  wellFormed := meaningAt_wellFormed (.pass inp) q s ((wellFormed_iff s).1 h.wellFormed).1 hq
  banks := .inr ⟨nextQuantity q, by rw [pass_cursor, Quantity_ofCode_code],
    onlyBank_pass inp q s (banks_of_boundary h.banks hq)⟩
  clockHigh := by rw [pass_out]
  strobeLow := by rw [pass_out]
  noTransient := pass_transient inp q s
  supply := by
    rw [pass_stimulus, pass_params]
    exact h.supply

/-- Settles O50. -/
theorem boundaryHoldsAtReset : Obligations.BoundaryHoldsAtReset := by
  have hreset (p : Params) : Boundary (State.resetOf p) :=
    ⟨rfl, .inl noBank_reset, rfl, rfl, rfl, fun _ hmem => absurd hmem List.not_mem_nil⟩
  exact ⟨hreset, hreset Params.part⟩

theorem isPassOrReset_cases {i : Instr} (h : isPassOrReset i = true) : i = .reset ∨ ∃ inp, i = .pass inp := by
  cases i with
  | reset => exact .inl rfl
  | pass inp => exact .inr ⟨inp, rfl⟩
  | _ => cases h

theorem passOrReset_op {p : Params} {w : Nat} (h : passOrReset p (.op w) = true) :
    ∃ i, decode p w = .ok i ∧ (i = .reset ∨ ∃ inp, i = .pass inp) := by
  unfold passOrReset at h
  split at h
  · next heq => cases heq
  · next w' heq =>
    injection heq with heq
    subst heq
    split at h
    · next i hi => exact ⟨i, hi, isPassOrReset_cases h⟩
    · cases h

/-- What a pass or a reset runs: RESET, whatever the state; or behind the guard a pass, whole or abandoned. -/
inductive PassOrResetRun (s : State) : Host.Outcome State Fault Refusal → Prop
  | reset : PassOrResetRun s (.next (abandonAfter s []))
  | pass (inp : Sample) : PassOrResetRun s (guarded s fun q => pass inp q s)
  | abandoned (inp : Sample) (k : Nat) :
    PassOrResetRun s (guarded s fun q => abandonAfter s ((Machine.pass inp q s).events.take k))

theorem passOrResetRun_drawStep (d : Draw) (s : State) : PassOrResetRun s (drawStep d s) := by
  rcases hrst : d.rst with _ | _ | k
  · exact drawStep_none s hrst ▸ .pass d.inp
  · exact drawStep_zero s hrst ▸ .reset
  · exact drawStep_succ s hrst ▸ .abandoned d.inp (k + 1)

theorem passOrResetRun_applyStimulus {x : Stimulus} {s : State} (hx : passOrReset s.params x = true) :
    PassOrResetRun s (applyStimulus x s) := by
  cases x with
  | env d => exact passOrResetRun_drawStep d s
  | op w =>
    obtain ⟨i, hdecode, rfl | ⟨inp, rfl⟩⟩ := passOrReset_op hx
    · rw [applyStimulus, runWord_ok hdecode]
      exact .reset
    · rw [applyStimulus, runWord_ok hdecode]
      exact .pass inp

theorem PassOrResetRun.boundary {s t : State} {o : Host.Outcome State Fault Refusal} (hrun : PassOrResetRun s o)
    (hs : Boundary s) (h : o = .next t) : Boundary t := by
  cases hrun with
  | reset =>
    injection h with h
    exact h ▸ boundary_abandonAfter s [] hs.supply
  | pass inp =>
    obtain ⟨_, _, q, hq, rfl⟩ := guarded_next _ _ _ h
    exact boundary_pass hs hq inp
  | abandoned inp k =>
    obtain ⟨_, _, q, _, rfl⟩ := guarded_next _ _ _ h
    exact boundary_abandonAfter s _ hs.supply

theorem PassOrResetRun.answers {s : State} {o : Host.Outcome State Fault Refusal} (hrun : PassOrResetRun s o)
    (hs : Ready s) : ∃ t, o = .next t := by
  obtain ⟨hp, ht, q, hq⟩ := hs.cases
  cases hrun with
  | reset => exact ⟨_, rfl⟩
  | pass inp => exact ⟨_, guarded_of_ready s _ q hp ht hq⟩
  | abandoned inp k => exact ⟨_, guarded_of_ready s _ q hp ht hq⟩

/-- Taking a stimulus from the supply leaves a boundary, and what is taken is a pass or a reset. -/
theorem boundary_nextStimulus {s : State} (h : Boundary s) :
    Boundary (nextStimulus s).2 ∧ passOrReset (nextStimulus s).2.params (nextStimulus s).1 = true := by
  obtain ⟨hwf, hbanks, hclock, hstrobe, htransient, hsupply⟩ := h
  cases hqueue : s.stimulus with
  | nil =>
    rw [nextStimulus_of_nil hqueue]
    exact ⟨⟨hwf, hbanks, hclock, hstrobe, htransient, hsupply⟩, rfl⟩
  | cons x rest =>
    rw [nextStimulus_of_cons hqueue]
    rw [hqueue] at hsupply
    obtain ⟨hx, hrest⟩ := List.forall_mem_cons.1 hsupply
    exact ⟨⟨hwf, hbanks, hclock, hstrobe, htransient, hrest⟩, hx⟩

/-- Settles O52. -/
theorem stepKeepsBoundary : Obligations.StepKeepsBoundary := by
  intro s t hs h
  obtain ⟨hnext, hx⟩ := boundary_nextStimulus hs
  exact (passOrResetRun_applyStimulus hx).boundary hnext h

/-- A boundary state of a legal part has a next step. -/
theorem step_answers {s : State} (hp : legalParams s.params = true) (hs : Boundary s) : ∃ t, step s = .next t := by
  obtain ⟨hnext, hx⟩ := boundary_nextStimulus hs
  have hready : Ready (nextStimulus s).2 := ⟨nextStimulus_params s ▸ hp, hnext.wellFormed⟩
  exact (passOrResetRun_applyStimulus hx).answers hready

/-- Settles O53: by induction on the number of steps, the boundary and the legality of the parameters being kept. -/
theorem runsAreNeverRefused : Obligations.RunsAreNeverRefused := by
  intro s k hp hs
  induction k generalizing s with
  | zero => exact trivial
  | succ k ih =>
    obtain ⟨t, ht⟩ := step_answers hp hs
    obtain ⟨_, hparams⟩ := step_keeps_wellFormed ht
    exact ⟨t, ht, ih t (hparams ▸ hp) (stepKeepsBoundary s t hs ht)⟩

end Sys2Proof.Steps
